-- ==== Sys2Proof/Word.lean ====
section
/-! DEFINITION. Word sizes of the S4 (R6) and the token (R38). -/

namespace Sys2Proof

/-- A byte (R6). -/
abbrev Byte := BitVec 8
/-- A word of 32 bits (R6): instruction and header words. -/
abbrev Word32 := BitVec 32
/-- A double of 64 bits (R6). -/
abbrev Word := BitVec 64
/-- A vector of 512 bits (R6). -/
abbrev Vec := BitVec 512

/-- A token: 512 payload bits and 64 null bits, null bit `j` covering payload byte `j` (R38). -/
structure Token where
  pay : Vec
  nul : BitVec 64
  deriving DecidableEq, Repr

/-- Sparse bytes by address: addresses rising, no entry equal to the byte 0 an unlisted address reads as. -/
abbrev Mem := List Host.Cell

/-- Sparse entries by number, numbers rising. -/
abbrev AMap (α : Type) := List (Nat × α)

end Sys2Proof
end

