-- ==== Sys2Proof/Config.lean ====
section
/-! DEFINITION. What the spec leaves to an implementation or leaves open: constants without a body, so that nothing
proved rests on a value of them (assumption log 3, 10, 11, 12). -/

namespace Sys2Proof.Config

/-- Free bits: value number `n` of those the spec leaves open (log 3, DESIGN CHOICE). -/
opaque freeBit : Nat → Bool
/-- Free numbers: value number `n` of those the spec leaves open (log 3, DESIGN CHOICE). -/
opaque freeNat : Nat → Nat

/-- The FP32 value of a plane element whose saved format names none (R299, R396; log 9, DESIGN CHOICE). -/
opaque planeValue : Nat → BitVec 32

/-- How far the copy of TIMEBASE of a die is ahead of the slowest copy, in ns modulo 5 (R401; log 51, DESIGN CHOICE). -/
opaque dieSkew : Nat → Nat

/-- The address of the resident trap block firmware writes into TRAPVEC in boot stage 4 (R381, R416). -/
opaque residentTrapBlock : Word
/-- The handler table firmware gives the supervisor cores (R338). -/
opaque residentHtab : Word
/-- The handler strands firmware gives the supervisor cores (R338). -/
opaque residentStrands : BitVec 16
/-- The certificate of the device key, in DER, at mailbox offset 0x2000 (R418). -/
opaque certificate : List Byte
/-- The device serial number fused at manufacture (R418). -/
opaque serial : Word
/-- Fused digest of key slot `k` (R417). -/
opaque fuseDigest : Nat → List Byte
/-- Key slot `k` is revoked (R417). -/
opaque fuseRevoked : Nat → Bool
/-- The fused minimum image version (R417). -/
opaque fuseMinVersion : Nat
/-- The modulus of the device key fused at manufacture (R418). -/
opaque deviceModulus : Nat
/-- The private exponent of the device key fused at manufacture (R418). -/
opaque deviceExponent : Nat

end Sys2Proof.Config
end

