-- ==== Sys2Proof/Packets.lean ====
section
/-! DEFINITION. What travels in the machine: requests, answers, flits, commands and messages, as plain data.
The steps of the opcode table that are no instructions take these as operands. -/

namespace Sys2Proof

/-- An exact number of chapter 06: NaN, an infinity, or ± `m` × 2^`e`. -/
inductive Ex where
  | nan
  | inf (neg : Bool)
  | num (neg : Bool) (m : Nat) (e : Int)
  deriving DecidableEq, Repr

/-- The issuer of an operation: core, strand, flush epoch, body index and LSID (R239, R291). -/
structure Src where
  core : Nat
  strand : Nat
  epoch : Nat
  idx : Nat
  lsid : Nat
  deriving DecidableEq, Repr

/-- What a returning operation gets back (R43, R251). -/
inductive Ret where
  /-- bytes `off …` of a load -/
  | bytes (off : Nat) (d : List Byte)
  /-- a whole token -/
  | tok (t : Token)
  /-- a cause with its TVAL: the block faults precisely -/
  | cause (code : Nat) (tval : Word)
  /-- the probe of the part at byte `off` of a held effect or returning atomic passed (R49, R219) -/
  | passed (off : Nat)
  deriving DecidableEq, Repr

/-- What a memory access does at its home (R186, chapter 10). -/
inductive MemOp where
  /-- read `z` bytes into result bytes `off …`; `fill`: fetch the whole line for the L1 -/
  | read (off z : Nat) (fill : Bool)
  /-- write the bytes that are present -/
  | write (d : List (Option Byte))
  /-- atomic AMOFN `fn` on 4 or 8 bytes (`wide`), operand bits `b` (R218) -/
  | amo (fn : BitVec 4) (wide : Bool) (b : BitVec 128)
  /-- vector atomic VFN `fn` (R221) -/
  | vamo (fn : BitVec 4) (b : Token)
  /-- discard of LD.last (R187) -/
  | discard
  /-- write back dirty lines of `len` bytes (R224) -/
  | clean (len : Nat)
  /-- checks only, as a read or a write (R49, R219) -/
  | probe (z : Nat) (wr : Bool)
  deriving DecidableEq, Repr

/-- Where the outcome of a memory access goes. -/
inductive MemOrig where
  /-- a load of a block -/
  | load (src : Src)
  /-- the check of the part at byte `off` of a held effect, at firing -/
  | held (src : Src) (off : Nat)
  /-- the probe of a returning atomic -/
  | atomicProbe (src : Src)
  /-- entry `seq` of a core's store buffer -/
  | sb (core seq : Nat) (ret : Option Src)
  /-- a prefetch, answered to nobody -/
  | prefetch
  /-- an access of a peer that arrived as an ACCESS flit with this tag -/
  | peer (node tag : Nat)
  deriving DecidableEq, Repr

/-- A global memory access: address, ASID, mode and origin; `core`: the issuing core, none for a peer. -/
structure MemReq where
  orig : MemOrig
  g : Word
  asid : BitVec 16
  user : Bool
  core : Option Nat
  op : MemOp
  deriving DecidableEq, Repr

/-- A page leaf as a translation uses it (R268). -/
structure Leaf where
  frame : Nat
  big : Bool
  w : Bool
  x : Bool
  u : Bool
  attr : BitVec 2
  disc : Bool
  host : Bool
  owner : Nat
  deriving DecidableEq, Repr

/-- The name of a version: ASID, TN, VER. -/
structure Ref where
  asid : BitVec 16
  tn : BitVec 32
  ver : BitVec 32
  deriving DecidableEq, Repr

/-- The head of a tile request: the version it names, its issuer, the committing block and the place in the
store buffer of a held request (R252, R253). -/
structure TReq where
  ref : Ref
  src : Src
  blk : Word
  seq : Nat
  /-- the launch of the issuing task (R253) -/
  launch : Option (BitVec 16 × BitVec 32)
  deriving DecidableEq, Repr

/-- The creation fields of TNEW, a fork or a proxy (R254, R255, R263). -/
structure NewDesc where
  size : Nat
  pend : Nat
  refs : Nat
  fmt : BitVec 4
  pin : Bool
  hbm : Bool
  /-- the source device of a proxy -/
  proxy : Option Nat
  /-- the source and byte count of a fork -/
  fork : Option (Ref × Nat)
  deriving DecidableEq, Repr

/-- Who waits for a version to become readable (R239). -/
inductive WaitFor where
  /-- a TLD of bytes `[off, off+z)` -/
  | read (src : Src) (off z : Nat)
  /-- a TWAIT -/
  | status (src : Src)
  /-- an engine command of engine `e` -/
  | engine (e id : Nat)
  /-- a link command of port `p`; `rin`: for its residual -/
  | link (p id : Nat)
  /-- a READ flit of a peer parked here: peer node, tag, byte range -/
  | peer (node tag off z : Nat)
  /-- the guard watch of a guarded version (R238) -/
  | guard (owner : Ref)
  /-- an AUTO stream of the Larder: die × 4096 + index and its GEN -/
  | larder (entry gen : Nat)
  /-- the dispatcher, launch version NEXTL of the ASID -/
  | nextl
  /-- prerequisite `p` of launch `ver` -/
  | prereq (ver : BitVec 32) (p : Nat)
  /-- the fold unit, for the result version -/
  | fold (result : Ref) (staging : BitVec 32) (nr : Nat)
  /-- a subscription of a peer -/
  | sub (node refs : Nat)
  deriving DecidableEq, Repr

structure Waiter where
  ver : BitVec 32
  who : WaitFor
  deriving DecidableEq, Repr

/-- An answer to a watch (R241, R369). -/
inductive Answer where
  | readable | poisoned | absent
  deriving DecidableEq, Repr

/-- A command of an engine, the matrix unit or a link port: its words and operand tokens (R396), its issuer,
the committing block and what held at firing (R308, R319). -/
structure Cmd where
  id : Nat
  src : Src
  blk : Word
  asid : BitVec 16
  user : Bool
  w0 : Word32
  w1 : Word32
  a : Token
  b : Token
  base : Nat
  limit : Nat
  /-- the launch of the issuing task -/
  launch : Option (BitVec 16 × BitVec 32)
  /-- has started and is in the running set -/
  run : Bool
  /-- a source read is parked (R326) -/
  parked : Bool
  /-- parts performed, with the bytes a matrix part read -/
  got : AMap (List Byte)
  /-- parts sent or written, and for an engine and an XGET which, in no order (R202) -/
  parts : Nat
  wrote : List Nat
  /-- remote reads and writes not yet answered; the transfer's tag -/
  unacked : Nat
  tag : Nat
  /-- the cause and TVAL it fails with -/
  failed : Option (Nat × Word)
  /-- matrix: the configuration for it (R302), and the Loft address of a local tile -/
  cfg : BitVec 16
  at_ : Nat
  /-- Kiln: the non-finite mark; ROUT has been created -/
  nf : Bool
  rout : Bool
  /-- LUT4A and LUT4B as at the start (R325) -/
  luta : Word
  lutb : Word
  /-- bytes fetched from another device's version, or by a global MLDS; and of RIN, or of an index list -/
  buf : List Byte
  fetched : Bool
  rbuf : List Byte
  rfetched : Bool
  deriving DecidableEq, Repr

/-- An active message (R336, R386). -/
structure Msg where
  dest : Nat
  cls : Nat
  pay : Vec
  core : Nat
  strand : Nat
  time : BitVec 40
  asid : BitVec 16
  /-- a trap message is taken whatever the core's ASID (R386) -/
  trap : Bool
  deriving DecidableEq, Repr

/-- A trap message on its way to its row collector (R386). -/
structure TrapMsg where
  kind : Nat
  cause : BitVec 8
  asid : BitVec 16
  row : Nat
  die : Nat
  code : BitVec 16
  tval : Word
  cores : BitVec 128
  tblk : Word
  ttime : BitVec 40
  count : Nat
  /-- TIMEBASE[39:0] when it is sent (R402) -/
  time : BitVec 40
  deriving DecidableEq, Repr

/-- What a WRITE flit's data goes to (R343). -/
inductive WDest where
  | addr (asid : BitVec 16) (g : Word)
  | fill (ref : Ref) (off : Nat) (fmt : Option (BitVec 4))
  /-- guard word of a transfer (R354) -/
  | guardWord (ref : Ref) (off : Nat)
  /-- fold contribution: result version, staging TN, rank, NR, element offset; the elements are BF16, FP32, or blocks of
  32 codes with their scale: MXFP4, E4M3, E5M2 (0-4) -/
  | contrib (result : Ref) (staging : BitVec 32) (rank nr off fmt : Nat)
  deriving DecidableEq, Repr

/-- What an ACCESS flit asks (R343, R344). -/
structure RemoteAcc where
  asid : BitVec 16
  user : Bool
  g : Word
  op : MemOp
  deriving DecidableEq, Repr

/-- What a READ flit asks for: an address range, or bytes of a version (R343). -/
inductive RSrc where
  | addr (asid : BitVec 16) (user : Bool) (g : Word)
  | tile (ref : Ref) (off : Nat)
  deriving DecidableEq, Repr

/-- A flit with the data flits that follow it (R343), named by type; `node` is the other device, `req` the core and
LSID of a remote load. The ASID of an answer is that of what it answers. -/
inductive Flit where
  | write (node tag : Nat) (dest : WDest) (user : Bool) (data : List (Option Byte)) (last : Bool)
  | read (node tag : Nat) (what : RSrc) (n : Nat) (req : Option (Nat × Nat))
  | rdata (node tag : Nat) (asid : BitVec 16) (data : List Byte) (last : Bool)
  | access (node tag : Nat) (acc : RemoteAcc)
  | ack (node tag : Nat) (asid : BitVec 16) (result : Option (BitVec 64))
  | fail (node tag : Nat) (asid : BitVec 16) (cause : Nat) (tval : Word)
  | notice (node : Nat) (ref : Ref) (ans : Answer) (fmt : BitVec 4) (size : Nat) (time : BitVec 40)
  | sub (node : Nat) (ref : Ref) (refs : Nat)
  | dec (node : Nat) (ref : Ref)
  | credit (node : Nat) (classes : List Nat)
  /-- any other TYPE -/
  | other (node : Nat) (type : BitVec 8)
  deriving DecidableEq, Repr

/-- A page migration in progress (R274). -/
structure Migration where
  asid : BitVec 16
  die : Nat
  va : Nat
  big : Bool
  old : Nat
  new : Nat
  cursor : Nat
  done : Ref
  /-- the core whose PMIG it is -/
  core : Nat
  deriving DecidableEq, Repr

/-- A TLBINV in progress (R394). -/
structure Tlbinv where
  id : Nat
  /-- the issuing core, whose stores ahead of it are performed first -/
  core : Nat
  asid : BitVec 16
  all : Bool
  va : Nat
  len : Nat
  act : Nat
  dies : BitVec 4
  acked : BitVec 4
  done : Ref
  deriving DecidableEq, Repr

/-- What a transfer tag of an outgoing flit stands for (R343). -/
inductive TagUse where
  | mem (m : MemReq)
  /-- command `id` of a port -/
  | link (port id : Nat)
  /-- part `part` of command `id` of an engine -/
  | engine (e id part : Nat)
  /-- the bytes of a proxy that a command of kind 0 engine, 1 matrix or 2 port reads; `rin`: of its residual -/
  | fetch (kind u id : Nat) (rin : Bool)
  /-- a TLD of `z` bytes, a fork's copy with what it has got, or a guard's check of a version that is a proxy here (R242) -/
  | tld (src : Src) (z : Nat)
  | fork (r : TReq) (source : Ref) (n : Nat) (got : List Byte)
  | guard (owner : Ref) (got : List Byte)
  /-- the launch record of an ASID's version NEXTL that is a proxy here -/
  | record (asid : BitVec 16)
  /-- the HTAB entry that a core's next handler starts from (R338) -/
  | htab (core : Nat)
  deriving DecidableEq, Repr

/-- A request to the Larder (R290, R291). -/
inductive LReq where
  | sarr (handle : Word) (tokens : Nat) (fin : Bool)
  | sset (op : Nat) (handle : Word) (arg : Word)
  | snew (desc : Vec) (place : Word)
  /-- the confirmation of a reservation: entry and descriptor -/
  | confirm (entry : Nat) (desc : Vec)
  | sqry (handle : Word)
  | sbld (budget : Nat) (btn : BitVec 32)
  deriving DecidableEq, Repr

/-- A CXL.mem access of the host (R411). -/
inductive HostMem where
  | load (pa n : Nat)
  | store (pa : Nat) (d : List Byte)
  deriving DecidableEq, Repr

/-- A CXL.cache snoop, with the host's new data where it wrote the line (R204). -/
inductive Snoop where
  | inv (line : Nat) (d : List Byte)
  | data (line : Nat)
  deriving DecidableEq, Repr

/-- Where an uncorrectable error strikes (R189, R407). -/
inductive ErrAt where
  | line (pa : Nat)
  | loft (core addr : Nat)
  | l1 (core k : Nat)
  | version (ref : Ref)
  /-- an error that ECC corrects, of a source of R407; kind 0 is host memory -/
  | corrected (kind : Nat) (source : Nat)
  /-- a line of host memory -/
  | host (pa : Nat)
  /-- an uncorrectable error of a link lane (kind 3) or a UCIe joint (kind 4), which replay makes good (R341, R343) -/
  | link (kind : Nat) (source : Nat)
  deriving DecidableEq, Repr

/-- What each step that is no instruction carries: one constructor for each such row of the opcode table. -/
inductive Packet where
  /-- BLOCK_FETCH (R37) -/
  | blockFetch (core strand : Nat)
  /-- RESULT_RETURN (R43); `home`: where it comes from, none for the core itself: a slice by its
  number, the host-attach agent 256, a die's Larder 300 + its number, another device 512 + its node (R22) -/
  | resultReturn (home : Option Nat) (src : Src) (r : Ret)
  /-- BLOCK_COMMIT (R56) -/
  | blockCommit (core strand : Nat)
  /-- WATCHDOG_EXPIRY (R54) -/
  | watchdogExpiry (core strand : Nat)
  /-- STORE_BUFFER_DRAIN (R50) -/
  | storeBufferDrain (core k : Nat)
  /-- HOME_ACCESS (R186) -/
  | homeAccess (m : MemReq) (pa : Nat) (leaf : Leaf)
  /-- L1_FILL (R181) -/
  | l1Fill (core : Nat) (asid : BitVec 16) (line : Nat) (d : List Byte) (leaf : Leaf)
  /-- WAYMASK_WRITE (R185) -/
  | waymaskWrite (slice : Nat) (v : Word) (nulls : BitVec 8) (src : Src)
  /-- WAY_DRAIN (R185) -/
  | wayDrain (slice way : Nat)
  /-- TBLK_WRITE (R381) -/
  | tblkWrite (core strand : Nat) (v : Word)
  /-- TILE_ACK (R253) -/
  | tileAck (r : TReq) (cause : Option Nat)
  /-- TNEW_AT_HOME (R254) -/
  | tnewAtHome (r : TReq) (d : NewDesc)
  /-- TLD_AT_HOME (R259) -/
  | tldAtHome (r : TReq) (off z : Nat)
  /-- TST_AT_HOME (R257) -/
  | tstAtHome (r : TReq) (off : Nat) (d : List (Option Byte))
  /-- TSEAL_AT_HOME (R237) -/
  | tsealAtHome (r : TReq) (fin arr : Bool) (size : Nat)
  /-- TWAIT_AT_HOME (R260) -/
  | twaitAtHome (r : TReq)
  /-- TQRY_AT_HOME (R260) -/
  | tqryAtHome (r : TReq) (tile : Bool)
  /-- THOLD_AT_HOME (R232) -/
  | tholdAtHome (r : TReq)
  /-- DECREMENT_AT_HOME (R232) -/
  | decrementAtHome (r : TReq)
  /-- TFORK_AT_HOME (R255) -/
  | tforkAtHome (r : TReq) (source : Ref) (n size refs : Nat)
  /-- TFORK_COPY_END (R255) -/
  | tforkCopyEnd (r : TReq) (source : Ref) (n : Nat)
  /-- TALIAS_AT_HOME (R256) -/
  | taliasAtHome (r : TReq) (owner : BitVec 32) (refs : Nat)
  /-- TGUARD_AT_HOME (R238) -/
  | tguardAtHome (r : TReq) (guard : Ref)
  /-- GUARD_RESULT (R238) -/
  | guardResult (owner : Ref) (set : Bool)
  /-- TSUB_AT_HOME (R241) -/
  | tsubAtHome (ref : Ref) (node refs : Nat)
  /-- TPIN_AT_HOME (R264) -/
  | tpinAtHome (r : TReq) (pin : Bool)
  /-- TMOVE_AT_HOME (R264) -/
  | tmoveAtHome (r : TReq) (hbm : Bool)
  /-- WAITER_CANCEL (R239) -/
  | waiterCancel (ref : Ref) (src : Src)
  /-- READ_RETRY (R239) -/
  | readRetry (ref : Ref) (who : WaitFor) (time delay : Nat)
  /-- WATCH_RETRY (R239) -/
  | watchRetry (ref : Ref) (who : WaitFor) (time delay : Nat)
  /-- PAGE_WALK (R269) -/
  | pageWalk (m : MemReq)
  /-- HELD_TIMEOUT (R385) -/
  | heldTimeout (core strand : Nat)
  /-- TRAP_MESSAGE_AT_COLLECTOR (R386) -/
  | trapMessageAtCollector (m : TrapMsg)
  /-- TLBINV_AT_DIE (R394) -/
  | tlbinvAtDie (t : Tlbinv) (die : Nat)
  /-- TLBINV_ACK (R205) -/
  | tlbinvAck (id die : Nat)
  /-- PMIG_AT_TRANSLATOR (R274) -/
  | pmigAtTranslator (m : Migration)
  /-- MIGRATION_LINE_MOVE (R275) -/
  | migrationLineMove (k : Nat)
  /-- ENGINE_COMMAND_ARRIVAL (R320) -/
  | engineCommandArrival (e : Nat) (c : Cmd)
  /-- ENGINE_COMMAND_START (R320) -/
  | engineCommandStart (e : Nat)
  /-- ENGINE_SOURCE_ANSWER (R326) -/
  | engineSourceAnswer (e id : Nat) (a : Answer)
  /-- ENGINE_COMMAND_COMPLETE (R328) -/
  | engineCommandComplete (e id : Nat)
  /-- ENGINE_COMMAND_FAIL (R329) -/
  | engineCommandFail (e id cause : Nat) (tval : Word)
  /-- XCAN_AT_ENGINE (R330) -/
  | xcanAtEngine (core : Nat) (asid : BitVec 16) (loc : Bool) (ref : Word)
  /-- MATRIX_COMMAND_START (R302) -/
  | matrixCommandStart (core id : Nat)
  /-- MLDS_FETCH_COMPLETE (R302) -/
  | mldsFetchComplete (core id : Nat)
  /-- MATRIX_COMMAND_COMPLETE (R304) -/
  | matrixCommandComplete (core id : Nat)
  /-- MATRIX_COMMAND_FAIL (R305) -/
  | matrixCommandFail (core id cause : Nat) (tval : Word)
  /-- LINK_COMMAND_START (R350) -/
  | linkCommandStart (port : Nat)
  /-- LINK_COMMAND_COMPLETE (R352) -/
  | linkCommandComplete (port id : Nat)
  /-- LINK_COMMAND_FAIL (R352) -/
  | linkCommandFail (port id cause : Nat) (tval : Word)
  /-- WRITE (R351) -/
  | writeFlit (node tag : Nat) (dest : WDest) (user : Bool) (d : List (Option Byte)) (last : Bool)
  /-- READ (R351) -/
  | readFlit (node tag : Nat) (what : RSrc) (n : Nat)
  /-- RDATA (R351) -/
  | rdataFlit (node tag : Nat) (d : List Byte) (last : Bool)
  /-- ACCESS (R344) -/
  | accessFlit (node tag : Nat) (acc : RemoteAcc)
  /-- ACK (R344) -/
  | ackFlit (node tag : Nat) (result : Option (BitVec 64))
  /-- FAIL (R344) -/
  | failFlit (node tag cause : Nat) (tval : Word)
  /-- NOTICE (R242) -/
  | noticeFlit (node : Nat) (ref : Ref) (a : Answer) (fmt : BitVec 4) (size : Nat) (time : BitVec 40)
  /-- DEC (R242) -/
  | decFlit (node : Nat) (ref : Ref)
  /-- CREDIT (R343) -/
  | creditFlit (node : Nat) (classes : List Nat)
  /-- UNLISTED_TYPE_FLIT (R343) -/
  | unlistedTypeFlit (node : Nat) (type : BitVec 8)
  /-- FLIT_CRC_REPLAY (R343) -/
  | flitCrcReplay (port : Nat)
  /-- FOLD (R356); `held`: references taken, 0 none, 1 on the staging version, 2 on it and on the base -/
  | fold (result : Ref) (staging : BitVec 32) (nr held : Nat)
  /-- PORT_TRAINED (R342) -/
  | portTrained (port : Nat)
  /-- LANE_FAILURE (R342) -/
  | laneFailure (port lanes : Nat)
  /-- PORT_DOWN (R342) -/
  | portDown (port : Nat)
  /-- UCIE_REPLAY (R341) -/
  | ucieReplay (joint : Nat)
  /-- UCIE_RETRAIN_FAILURE (R341) -/
  | ucieRetrainFailure (joint : Nat)
  /-- AUTO_INPUT_SEAL (R280) -/
  | autoInputSeal (entry gen : Nat) (a : Answer) (size : Nat) (fin : Bool)
  /-- SILENCE_TIMEOUT (R280) -/
  | silenceTimeout (entry : Nat)
  /-- EVICTION_COMPLETE (R288) -/
  | evictionComplete (entry : Nat)
  /-- RESTORE_COMPLETE (R288) -/
  | restoreComplete (entry : Nat)
  /-- RESTORE_TIMEOUT (R288) -/
  | restoreTimeout (entry : Nat)
  /-- STEP_BUILD (R284) -/
  | stepBuild
  /-- BATCH_SEAL (R283) -/
  | batchSeal
  /-- LAUNCH_ACCEPT (R363) -/
  | launchAccept (asid : BitVec 16)
  /-- PREREQUISITE_ANSWER (R369); `time`: when the watch was answered, in ns (R367) -/
  | prerequisiteAnswer (asid : BitVec 16) (ver : BitVec 32) (p : Nat) (a : Answer) (time : Nat)
  /-- NOTBEFORE_REACHED (R367) -/
  | notbeforeReached (asid : BitVec 16) (ver : BitVec 32)
  /-- CLASS_AGING (R370) -/
  | classAging (asid : BitVec 16) (ver : BitVec 32)
  /-- PLACEMENT_PASS (R371) -/
  | placementPass
  /-- LEASE_EXPIRY (R373) -/
  | leaseExpiry (asid : BitVec 16) (ver : BitVec 32)
  /-- PREEMPT_ARRIVAL (R395) -/
  | preemptArrival (core : Nat)
  /-- PREEMPT_GRACE_EXPIRY (R395) -/
  | preemptGraceExpiry (core : Nat)
  /-- CONTEXT_SAVE (R395) -/
  | contextSave (core : Nat)
  /-- RETIREMENT (R374) -/
  | retirement (asid : BitVec 16) (ver : BitVec 32)
  /-- MESSAGE_ARRIVAL (R337) -/
  | messageArrival (m : Msg)
  /-- MESSAGE_RETRY (R337) -/
  | messageRetry (m : Msg) (time delay : Nat)
  /-- HANDLER_START (R338) -/
  | handlerStart (core : Nat)
  /-- WFI_TIMEOUT (R391) -/
  | wfiTimeout (core strand : Nat)
  /-- YIELD_STANDOUT_END (R111) -/
  | yieldStandoutEnd (core strand : Nat)
  /-- ALIGN_RELEASE (R378) -/
  | alignRelease (core strand : Nat)
  /-- PTM_EXCHANGE (R400) -/
  | ptmExchange (host : Option Word)
  /-- SENSOR_REFRESH (R409) -/
  | sensorRefresh (die : Nat) (readings : List Int)
  /-- THROTTLE_UPDATE (R410) -/
  | throttleUpdate (die power : Nat)
  /-- SUPPLY_SAG (R410) -/
  | supplySag (ns : Nat)
  /-- FUNDAMENTAL_RESET (R416): whether HBM and the joints train and the DMA succeeds, and the BOOTADDR and BOOTLEN that the
  host writes -/
  | fundamentalReset (hbm joints dma : Bool) (bootAddr bootLen : Word)
  /-- DEVCTL_RESET (R416) -/
  | devctlReset (hbm joints dma : Bool) (bootAddr bootLen : Word)
  /-- DEVCTL_GO (R416): the ports that train, and the host's time if the PTM exchange succeeds -/
  | devctlGo (ports : List Nat) (host : Option Word)
  /-- EXTINT_WRITE (R384) -/
  | extintWrite (v : Word)
  /-- PUBLICATION (R415) -/
  | publication (d : Vec)
  /-- WINDOW_READ (R412) -/
  | windowRead (o n : Nat)
  /-- WINDOW_WRITE (R412) -/
  | windowWrite (o : Nat) (d : List Byte)
  /-- CXL_MEM_ACCESS (R411) -/
  | cxlMemAccess (a : HostMem)
  /-- HOST_SNOOP (R204) -/
  | hostSnoop (q : Snoop)
  /-- ATTESTATION_REQUEST (R418) -/
  | attestationRequest
  /-- HOST_REGISTER_WRITE (R413) -/
  | hostRegisterWrite (o : Nat) (v : Word)
  /-- UNCORRECTABLE_ERROR (R236) -/
  | uncorrectableError (at_ : ErrAt)
  /-- MODULE_REGISTER_WRITE (R103) -/
  | moduleRegisterWrite (index : BitVec 12) (v : Word) (nulls : BitVec 8) (src : Src)
  /-- LARDER_REQUEST (R290); `seq`: the store-buffer entry of a held one -/
  | larderRequest (die : Nat) (q : LReq) (src : Src) (asid : BitVec 16) (blk : Word)
      (launch : Option (BitVec 16 × BitVec 32)) (seq : Option Nat)
  /-- LINK_SOURCE_ANSWER (R353) -/
  | linkSourceAnswer (port id : Nat) (a : Answer)
  /-- ASID_TEARDOWN (R230) -/
  | asidTeardown (asid : BitVec 16)
  deriving DecidableEq, Repr

end Sys2Proof
end

