-- ==== Sys2Proof/Syntax.lean ====
section
/-! DEFINITION. The steps of the S4: one constructor for each row of the opcode table. The first 223 are
instructions of a block body, with the raw fields of their words (`pr` [24:23], `s` SHP, `t1`, `t0` targets, `arg`
ARG32); the others are the steps the machine takes by itself or that reach it from outside (95), whose `Packet`
the state holds. -/

namespace Sys2Proof

inductive Instr where
  /-- BR (R110) -/
  | br (pr : BitVec 2) (e : BitVec 3) (off : BitVec 18)
  /-- BRI (R110) -/
  | bri (pr : BitVec 2) (e : BitVec 3)
  /-- SCALL (R111) -/
  | scall (pr : BitVec 2) (e : BitVec 3) (n : BitVec 18)
  /-- HALT (R111) -/
  | halt (pr : BitVec 2) (e : BitVec 3)
  /-- YIELD (R111) -/
  | yield (pr : BitVec 2) (e : BitVec 3) (off : BitVec 18)
  /-- HRET (R339) -/
  | hret (pr : BitVec 2) (e : BitVec 3)
  /-- TRET (R390) -/
  | tret (pr : BitVec 2) (e : BitVec 3)
  /-- LINK (R113) -/
  | link (pr : BitVec 2) (imm : BitVec 12) (t0 : BitVec 8)
  /-- GENC (R114) -/
  | genc (pr : BitVec 2) (s : BitVec 3) (imm : BitVec 12) (t0 : BitVec 8)
  /-- GENU (R114) -/
  | genu (pr : BitVec 2) (s : BitVec 3) (imm : BitVec 12) (t0 : BitVec 8)
  /-- MOV (R115) -/
  | mov (pr : BitVec 2) (t1 : BitVec 8) (t0 : BitVec 8)
  /-- NUL (R116) -/
  | nul (pr : BitVec 2) (s : BitVec 3) (t0 : BitVec 8)
  /-- SEL (R117) -/
  | sel (pr : BitVec 2) (s : BitVec 3) (t1 : BitVec 8) (t0 : BitVec 8)
  /-- ADD (R118) -/
  | add (pr : BitVec 2) (s : BitVec 3) (t1 : BitVec 8) (t0 : BitVec 8)
  /-- SUB (R118) -/
  | sub (pr : BitVec 2) (s : BitVec 3) (t1 : BitVec 8) (t0 : BitVec 8)
  /-- MUL (R118) -/
  | mul (pr : BitVec 2) (s : BitVec 3) (t1 : BitVec 8) (t0 : BitVec 8)
  /-- MULH (R118) -/
  | mulh (pr : BitVec 2) (s : BitVec 3) (t1 : BitVec 8) (t0 : BitVec 8)
  /-- MULHU (R118) -/
  | mulhu (pr : BitVec 2) (s : BitVec 3) (t1 : BitVec 8) (t0 : BitVec 8)
  /-- MULHSU (R118) -/
  | mulhsu (pr : BitVec 2) (s : BitVec 3) (t1 : BitVec 8) (t0 : BitVec 8)
  /-- DIV (R119) -/
  | div (pr : BitVec 2) (s : BitVec 3) (t1 : BitVec 8) (t0 : BitVec 8)
  /-- DIVU (R119) -/
  | divu (pr : BitVec 2) (s : BitVec 3) (t1 : BitVec 8) (t0 : BitVec 8)
  /-- REM (R119) -/
  | rem (pr : BitVec 2) (s : BitVec 3) (t1 : BitVec 8) (t0 : BitVec 8)
  /-- REMU (R119) -/
  | remu (pr : BitVec 2) (s : BitVec 3) (t1 : BitVec 8) (t0 : BitVec 8)
  /-- AND (R118) -/
  | iand (pr : BitVec 2) (s : BitVec 3) (t1 : BitVec 8) (t0 : BitVec 8)
  /-- OR (R118) -/
  | ior (pr : BitVec 2) (s : BitVec 3) (t1 : BitVec 8) (t0 : BitVec 8)
  /-- XOR (R118) -/
  | ixor (pr : BitVec 2) (s : BitVec 3) (t1 : BitVec 8) (t0 : BitVec 8)
  /-- ANDN (R118) -/
  | andn (pr : BitVec 2) (s : BitVec 3) (t1 : BitVec 8) (t0 : BitVec 8)
  /-- ORN (R118) -/
  | orn (pr : BitVec 2) (s : BitVec 3) (t1 : BitVec 8) (t0 : BitVec 8)
  /-- SHL (R118) -/
  | shl (pr : BitVec 2) (s : BitVec 3) (t1 : BitVec 8) (t0 : BitVec 8)
  /-- SHR (R118) -/
  | shr (pr : BitVec 2) (s : BitVec 3) (t1 : BitVec 8) (t0 : BitVec 8)
  /-- SRA (R118) -/
  | sra (pr : BitVec 2) (s : BitVec 3) (t1 : BitVec 8) (t0 : BitVec 8)
  /-- ROL (R118) -/
  | rol (pr : BitVec 2) (s : BitVec 3) (t1 : BitVec 8) (t0 : BitVec 8)
  /-- CLZ (R118) -/
  | clz (pr : BitVec 2) (s : BitVec 3) (t1 : BitVec 8) (t0 : BitVec 8)
  /-- CTZ (R118) -/
  | ctz (pr : BitVec 2) (s : BitVec 3) (t1 : BitVec 8) (t0 : BitVec 8)
  /-- POPC (R118) -/
  | popc (pr : BitVec 2) (s : BitVec 3) (t1 : BitVec 8) (t0 : BitVec 8)
  /-- BREV (R118) -/
  | brev (pr : BitVec 2) (s : BitVec 3) (t1 : BitVec 8) (t0 : BitVec 8)
  /-- ABS (R118) -/
  | iabs (pr : BitVec 2) (s : BitVec 3) (t1 : BitVec 8) (t0 : BitVec 8)
  /-- SEXT (R120) -/
  | sext (pr : BitVec 2) (s : BitVec 3) (imm : BitVec 12) (t0 : BitVec 8)
  /-- ZEXT (R120) -/
  | zext (pr : BitVec 2) (s : BitVec 3) (imm : BitVec 12) (t0 : BitVec 8)
  /-- MIN (R118) -/
  | imin (pr : BitVec 2) (s : BitVec 3) (t1 : BitVec 8) (t0 : BitVec 8)
  /-- MAX (R118) -/
  | imax (pr : BitVec 2) (s : BitVec 3) (t1 : BitVec 8) (t0 : BitVec 8)
  /-- MINU (R118) -/
  | minu (pr : BitVec 2) (s : BitVec 3) (t1 : BitVec 8) (t0 : BitVec 8)
  /-- MAXU (R118) -/
  | maxu (pr : BitVec 2) (s : BitVec 3) (t1 : BitVec 8) (t0 : BitVec 8)
  /-- ADDS (R118) -/
  | adds (pr : BitVec 2) (s : BitVec 3) (t1 : BitVec 8) (t0 : BitVec 8)
  /-- SUBS (R118) -/
  | subs (pr : BitVec 2) (s : BitVec 3) (t1 : BitVec 8) (t0 : BitVec 8)
  /-- ADDSU (R118) -/
  | addsu (pr : BitVec 2) (s : BitVec 3) (t1 : BitVec 8) (t0 : BitVec 8)
  /-- SUBSU (R118) -/
  | subsu (pr : BitVec 2) (s : BitVec 3) (t1 : BitVec 8) (t0 : BitVec 8)
  /-- TEQ (R123) -/
  | teq (pr : BitVec 2) (s : BitVec 3) (t1 : BitVec 8) (t0 : BitVec 8)
  /-- TNE (R123) -/
  | tne (pr : BitVec 2) (s : BitVec 3) (t1 : BitVec 8) (t0 : BitVec 8)
  /-- TLT (R123) -/
  | tlt (pr : BitVec 2) (s : BitVec 3) (t1 : BitVec 8) (t0 : BitVec 8)
  /-- TLE (R123) -/
  | tle (pr : BitVec 2) (s : BitVec 3) (t1 : BitVec 8) (t0 : BitVec 8)
  /-- TLTU (R123) -/
  | tltu (pr : BitVec 2) (s : BitVec 3) (t1 : BitVec 8) (t0 : BitVec 8)
  /-- TLEU (R123) -/
  | tleu (pr : BitVec 2) (s : BitVec 3) (t1 : BitVec 8) (t0 : BitVec 8)
  /-- ADDI (R121) -/
  | addi (pr : BitVec 2) (s : BitVec 3) (imm : BitVec 12) (t0 : BitVec 8)
  /-- ANDI (R121) -/
  | andi (pr : BitVec 2) (s : BitVec 3) (imm : BitVec 12) (t0 : BitVec 8)
  /-- ORI (R121) -/
  | ori (pr : BitVec 2) (s : BitVec 3) (imm : BitVec 12) (t0 : BitVec 8)
  /-- XORI (R121) -/
  | xori (pr : BitVec 2) (s : BitVec 3) (imm : BitVec 12) (t0 : BitVec 8)
  /-- SHLI (R121) -/
  | shli (pr : BitVec 2) (s : BitVec 3) (imm : BitVec 12) (t0 : BitVec 8)
  /-- SHRI (R121) -/
  | shri (pr : BitVec 2) (s : BitVec 3) (imm : BitVec 12) (t0 : BitVec 8)
  /-- SRAI (R121) -/
  | srai (pr : BitVec 2) (s : BitVec 3) (imm : BitVec 12) (t0 : BitVec 8)
  /-- MULI (R121) -/
  | muli (pr : BitVec 2) (s : BitVec 3) (imm : BitVec 12) (t0 : BitVec 8)
  /-- TEQI (R123) -/
  | teqi (pr : BitVec 2) (s : BitVec 3) (imm : BitVec 12) (t0 : BitVec 8)
  /-- TNEI (R123) -/
  | tnei (pr : BitVec 2) (s : BitVec 3) (imm : BitVec 12) (t0 : BitVec 8)
  /-- TLTI (R123) -/
  | tlti (pr : BitVec 2) (s : BitVec 3) (imm : BitVec 12) (t0 : BitVec 8)
  /-- TLEI (R123) -/
  | tlei (pr : BitVec 2) (s : BitVec 3) (imm : BitVec 12) (t0 : BitVec 8)
  /-- TGTI (R123) -/
  | tgti (pr : BitVec 2) (s : BitVec 3) (imm : BitVec 12) (t0 : BitVec 8)
  /-- VPERM (R124) -/
  | vperm (pr : BitVec 2) (s : BitVec 3) (t1 : BitVec 8) (t0 : BitVec 8)
  /-- VZIP (R124) -/
  | vzip (pr : BitVec 2) (s : BitVec 3) (t1 : BitVec 8) (t0 : BitVec 8)
  /-- VUNZIP (R124) -/
  | vunzip (pr : BitVec 2) (s : BitVec 3) (t1 : BitVec 8) (t0 : BitVec 8)
  /-- VCMPR (R126) -/
  | vcmpr (pr : BitVec 2) (s : BitVec 3) (t1 : BitVec 8) (t0 : BitVec 8)
  /-- VBCAST (R124) -/
  | vbcast (pr : BitVec 2) (s : BitVec 3) (t1 : BitVec 8) (t0 : BitVec 8)
  /-- VSCAN (R127) -/
  | vscan (pr : BitVec 2) (s : BitVec 3) (t1 : BitVec 8) (t0 : BitVec 8)
  /-- VREDADD (R127) -/
  | vredadd (pr : BitVec 2) (s : BitVec 3) (t1 : BitVec 8) (t0 : BitVec 8)
  /-- VREDMIN (R127) -/
  | vredmin (pr : BitVec 2) (s : BitVec 3) (t1 : BitVec 8) (t0 : BitVec 8)
  /-- VREDMAX (R127) -/
  | vredmax (pr : BitVec 2) (s : BitVec 3) (t1 : BitVec 8) (t0 : BitVec 8)
  /-- VREDOR (R127) -/
  | vredor (pr : BitVec 2) (s : BitVec 3) (t1 : BitVec 8) (t0 : BitVec 8)
  /-- MASKPOP (R127) -/
  | maskpop (pr : BitVec 2) (s : BitVec 3) (t1 : BitVec 8) (t0 : BitVec 8)
  /-- VEXT (R124) -/
  | vext (pr : BitVec 2) (s : BitVec 3) (imm : BitVec 12) (t0 : BitVec 8)
  /-- VINS (R124) -/
  | vins (pr : BitVec 2) (s : BitVec 3) (lane : BitVec 4) (t1 : BitVec 8) (t0 : BitVec 8)
  /-- VSLIDE (R124) -/
  | vslide (pr : BitVec 2) (s : BitVec 3) (imm : BitVec 12) (t0 : BitVec 8)
  /-- VIOTA (R124) -/
  | viota (pr : BitVec 2) (s : BitVec 3) (imm : BitVec 12) (t0 : BitVec 8)
  /-- FADD (R153) -/
  | fadd (ty : BitVec 2) (pr : BitVec 2) (s : BitVec 3) (t1 : BitVec 8) (t0 : BitVec 8)
  /-- FSUB (R153) -/
  | fsub (ty : BitVec 2) (pr : BitVec 2) (s : BitVec 3) (t1 : BitVec 8) (t0 : BitVec 8)
  /-- FMUL (R153) -/
  | fmul (ty : BitVec 2) (pr : BitVec 2) (s : BitVec 3) (t1 : BitVec 8) (t0 : BitVec 8)
  /-- FDIV (R153) -/
  | fdiv (ty : BitVec 2) (pr : BitVec 2) (s : BitVec 3) (t1 : BitVec 8) (t0 : BitVec 8)
  /-- FMIN (R153) -/
  | fmin (ty : BitVec 2) (pr : BitVec 2) (s : BitVec 3) (t1 : BitVec 8) (t0 : BitVec 8)
  /-- FMAX (R153) -/
  | fmax (ty : BitVec 2) (pr : BitVec 2) (s : BitVec 3) (t1 : BitVec 8) (t0 : BitVec 8)
  /-- FCPYS (R153) -/
  | fcpys (ty : BitVec 2) (pr : BitVec 2) (s : BitVec 3) (t1 : BitVec 8) (t0 : BitVec 8)
  /-- FDOT (R160) -/
  | fdot (ty : BitVec 2) (pr : BitVec 2) (s : BitVec 3) (t1 : BitVec 8) (t0 : BitVec 8)
  /-- FSCL (R153) -/
  | fscl (ty : BitVec 2) (pr : BitVec 2) (s : BitVec 3) (t1 : BitVec 8) (t0 : BitVec 8)
  /-- FSQRT (R154) -/
  | fsqrt (ty : BitVec 2) (pr : BitVec 2) (s : BitVec 3) (t1 : BitVec 8) (t0 : BitVec 8)
  /-- FRCP (R154) -/
  | frcp (ty : BitVec 2) (pr : BitVec 2) (s : BitVec 3) (t1 : BitVec 8) (t0 : BitVec 8)
  /-- FRSQ (R154) -/
  | frsq (ty : BitVec 2) (pr : BitVec 2) (s : BitVec 3) (t1 : BitVec 8) (t0 : BitVec 8)
  /-- FABS (R154) -/
  | fabs (ty : BitVec 2) (pr : BitVec 2) (s : BitVec 3) (t1 : BitVec 8) (t0 : BitVec 8)
  /-- FNEG (R154) -/
  | fneg (ty : BitVec 2) (pr : BitVec 2) (s : BitVec 3) (t1 : BitVec 8) (t0 : BitVec 8)
  /-- FEXP2 (R154) -/
  | fexp2 (ty : BitVec 2) (pr : BitVec 2) (s : BitVec 3) (t1 : BitVec 8) (t0 : BitVec 8)
  /-- FLOG2 (R154) -/
  | flog2 (ty : BitVec 2) (pr : BitVec 2) (s : BitVec 3) (t1 : BitVec 8) (t0 : BitVec 8)
  /-- FCLASS (R157) -/
  | fclass (ty : BitVec 2) (pr : BitVec 2) (s : BitVec 3) (t1 : BitVec 8) (t0 : BitVec 8)
  /-- FREDADD (R159) -/
  | fredadd (ty : BitVec 2) (pr : BitVec 2) (s : BitVec 3) (t1 : BitVec 8) (t0 : BitVec 8)
  /-- NFCHK (R158) -/
  | nfchk (ty : BitVec 2) (pr : BitVec 2) (s : BitVec 3) (t1 : BitVec 8) (t0 : BitVec 8)
  /-- FEQ (R156) -/
  | feq (ty : BitVec 2) (pr : BitVec 2) (s : BitVec 3) (t1 : BitVec 8) (t0 : BitVec 8)
  /-- FLT (R156) -/
  | flt (ty : BitVec 2) (pr : BitVec 2) (s : BitVec 3) (t1 : BitVec 8) (t0 : BitVec 8)
  /-- FLE (R156) -/
  | fle (ty : BitVec 2) (pr : BitVec 2) (s : BitVec 3) (t1 : BitVec 8) (t0 : BitVec 8)
  /-- FUN (R156) -/
  | fun (ty : BitVec 2) (pr : BitVec 2) (s : BitVec 3) (t1 : BitVec 8) (t0 : BitVec 8)
  /-- FFMA (R155) -/
  | ffma (ty : BitVec 2) (s : BitVec 3) (t1 : BitVec 8) (t0 : BitVec 8)
  /-- FFMS (R155) -/
  | ffms (ty : BitVec 2) (s : BitVec 3) (t1 : BitVec 8) (t0 : BitVec 8)
  /-- FNFMA (R155) -/
  | fnfma (ty : BitVec 2) (s : BitVec 3) (t1 : BitVec 8) (t0 : BitVec 8)
  /-- VMAXEXP (R162) -/
  | vmaxexp (ty : BitVec 2) (s : BitVec 3) (t1 : BitVec 8) (t0 : BitVec 8)
  /-- CVT (R164) -/
  | cvt (pr : BitVec 2) (s : BitVec 3) (inf : BitVec 1) (round : BitVec 3) (sfmt : BitVec 4) (dfmt : BitVec 4) (t0 : BitVec 8)
  /-- CVT_B8 (R165) -/
  | cvtB8 (pr : BitVec 2) (s : BitVec 3) (inf : BitVec 1) (round : BitVec 3) (ofmt : BitVec 4) (back : BitVec 1) (prec : BitVec 3) (t0 : BitVec 8)
  /-- CVT_UB8 (R165) -/
  | cvtUb8 (pr : BitVec 2) (s : BitVec 3) (inf : BitVec 1) (round : BitVec 3) (ofmt : BitVec 4) (back : BitVec 1) (prec : BitVec 3) (t0 : BitVec 8)
  /-- QPK4 (R167) -/
  | qpk4 (pr : BitVec 2) (t1 : BitVec 8) (t0 : BitVec 8)
  /-- QPK8_E4M3 (R167) -/
  | qpk8E4m3 (pr : BitVec 2) (t1 : BitVec 8) (t0 : BitVec 8)
  /-- QPK8_E5M2 (R167) -/
  | qpk8E5m2 (pr : BitVec 2) (t1 : BitVec 8) (t0 : BitVec 8)
  /-- QUNP_E2M1 (R168) -/
  | qunpE2m1 (pr : BitVec 2) (t1 : BitVec 8) (t0 : BitVec 8)
  /-- QUNP_E4M3 (R168) -/
  | qunpE4m3 (pr : BitVec 2) (t1 : BitVec 8) (t0 : BitVec 8)
  /-- QUNP_E5M2 (R168) -/
  | qunpE5m2 (pr : BitVec 2) (t1 : BitVec 8) (t0 : BitVec 8)
  /-- LUT4 (R169) -/
  | lut4 (pr : BitVec 2) (s : BitVec 3) (t1 : BitVec 8) (t0 : BitVec 8)
  /-- I4PK (R170) -/
  | i4pk (pr : BitVec 2) (s : BitVec 3) (t1 : BitVec 8) (t0 : BitVec 8)
  /-- LD (R212) -/
  | ld (pr : BitVec 2) (lsid : BitVec 5) (size : BitVec 3) (off : BitVec 4) (t0 : BitVec 8)
  /-- LD_ACQ (R212) -/
  | ldAcq (pr : BitVec 2) (lsid : BitVec 5) (size : BitVec 3) (scope : BitVec 4) (t0 : BitVec 8)
  /-- LD_LAST (R215) -/
  | ldLast (pr : BitVec 2) (lsid : BitVec 5) (size : BitVec 3) (off : BitVec 4) (t0 : BitVec 8)
  /-- LD_PF (R216) -/
  | ldPf (pr : BitVec 2) (lsid : BitVec 5) (off : BitVec 4)
  /-- LD_LOC (R212) -/
  | ldLoc (pr : BitVec 2) (lsid : BitVec 5) (size : BitVec 3) (off : BitVec 4) (t0 : BitVec 8)
  /-- LD_LOCACQ (R212) -/
  | ldLocacq (pr : BitVec 2) (lsid : BitVec 5) (size : BitVec 3) (t0 : BitVec 8)
  /-- ST (R213) -/
  | st (pr : BitVec 2) (lsid : BitVec 5) (size : BitVec 3) (off : BitVec 8)
  /-- ST_REL (R213) -/
  | stRel (pr : BitVec 2) (lsid : BitVec 5) (size : BitVec 3) (scope : BitVec 4)
  /-- ST_LOC (R213) -/
  | stLoc (pr : BitVec 2) (lsid : BitVec 5) (size : BitVec 3) (off : BitVec 8)
  /-- AADD_RET (R218) -/
  | aaddRet (wide : BitVec 1) (pr : BitVec 2) (lsid : BitVec 5) (scope : BitVec 3) (ord : BitVec 3) (t0 : BitVec 8)
  /-- AAND_RET (R218) -/
  | aandRet (wide : BitVec 1) (pr : BitVec 2) (lsid : BitVec 5) (scope : BitVec 3) (ord : BitVec 3) (t0 : BitVec 8)
  /-- AOR_RET (R218) -/
  | aorRet (wide : BitVec 1) (pr : BitVec 2) (lsid : BitVec 5) (scope : BitVec 3) (ord : BitVec 3) (t0 : BitVec 8)
  /-- AXOR_RET (R218) -/
  | axorRet (wide : BitVec 1) (pr : BitVec 2) (lsid : BitVec 5) (scope : BitVec 3) (ord : BitVec 3) (t0 : BitVec 8)
  /-- AMIN_RET (R218) -/
  | aminRet (wide : BitVec 1) (pr : BitVec 2) (lsid : BitVec 5) (scope : BitVec 3) (ord : BitVec 3) (t0 : BitVec 8)
  /-- AMAX_RET (R218) -/
  | amaxRet (wide : BitVec 1) (pr : BitVec 2) (lsid : BitVec 5) (scope : BitVec 3) (ord : BitVec 3) (t0 : BitVec 8)
  /-- AMINU_RET (R218) -/
  | aminuRet (wide : BitVec 1) (pr : BitVec 2) (lsid : BitVec 5) (scope : BitVec 3) (ord : BitVec 3) (t0 : BitVec 8)
  /-- AMAXU_RET (R218) -/
  | amaxuRet (wide : BitVec 1) (pr : BitVec 2) (lsid : BitVec 5) (scope : BitVec 3) (ord : BitVec 3) (t0 : BitVec 8)
  /-- AXCHG_RET (R218) -/
  | axchgRet (wide : BitVec 1) (pr : BitVec 2) (lsid : BitVec 5) (scope : BitVec 3) (ord : BitVec 3) (t0 : BitVec 8)
  /-- ACAS (R218) -/
  | acas (wide : BitVec 1) (pr : BitVec 2) (lsid : BitVec 5) (scope : BitVec 3) (ord : BitVec 3) (t0 : BitVec 8)
  /-- AFADD_RET (R218) -/
  | afaddRet (pr : BitVec 2) (lsid : BitVec 5) (scope : BitVec 3) (ord : BitVec 3) (t0 : BitVec 8)
  /-- AADD_NR (R220) -/
  | aaddNr (wide : BitVec 1) (pr : BitVec 2) (lsid : BitVec 5) (scope : BitVec 3) (ord : BitVec 3) (off : BitVec 8)
  /-- AAND_NR (R220) -/
  | aandNr (wide : BitVec 1) (pr : BitVec 2) (lsid : BitVec 5) (scope : BitVec 3) (ord : BitVec 3) (off : BitVec 8)
  /-- AOR_NR (R220) -/
  | aorNr (wide : BitVec 1) (pr : BitVec 2) (lsid : BitVec 5) (scope : BitVec 3) (ord : BitVec 3) (off : BitVec 8)
  /-- AXOR_NR (R220) -/
  | axorNr (wide : BitVec 1) (pr : BitVec 2) (lsid : BitVec 5) (scope : BitVec 3) (ord : BitVec 3) (off : BitVec 8)
  /-- AMIN_NR (R220) -/
  | aminNr (wide : BitVec 1) (pr : BitVec 2) (lsid : BitVec 5) (scope : BitVec 3) (ord : BitVec 3) (off : BitVec 8)
  /-- AMAX_NR (R220) -/
  | amaxNr (wide : BitVec 1) (pr : BitVec 2) (lsid : BitVec 5) (scope : BitVec 3) (ord : BitVec 3) (off : BitVec 8)
  /-- AMINU_NR (R220) -/
  | aminuNr (wide : BitVec 1) (pr : BitVec 2) (lsid : BitVec 5) (scope : BitVec 3) (ord : BitVec 3) (off : BitVec 8)
  /-- AMAXU_NR (R220) -/
  | amaxuNr (wide : BitVec 1) (pr : BitVec 2) (lsid : BitVec 5) (scope : BitVec 3) (ord : BitVec 3) (off : BitVec 8)
  /-- AXCHG_NR (R220) -/
  | axchgNr (wide : BitVec 1) (pr : BitVec 2) (lsid : BitVec 5) (scope : BitVec 3) (ord : BitVec 3) (off : BitVec 8)
  /-- AFADD_NR (R220) -/
  | afaddNr (pr : BitVec 2) (lsid : BitVec 5) (scope : BitVec 3) (ord : BitVec 3) (off : BitVec 8)
  /-- AOR_V (R221) -/
  | aorV (pr : BitVec 2) (lsid : BitVec 5) (scope : BitVec 3) (ord : BitVec 3) (off : BitVec 8)
  /-- AAND_V (R221) -/
  | aandV (pr : BitVec 2) (lsid : BitVec 5) (scope : BitVec 3) (ord : BitVec 3) (off : BitVec 8)
  /-- AADD_V32 (R221) -/
  | aaddV32 (pr : BitVec 2) (lsid : BitVec 5) (scope : BitVec 3) (ord : BitVec 3) (off : BitVec 8)
  /-- FENCE_ACQ (R222) -/
  | fenceAcq (pr : BitVec 2) (lsid : BitVec 5) (scope : BitVec 3)
  /-- FENCE_REL (R222) -/
  | fenceRel (pr : BitVec 2) (lsid : BitVec 5) (scope : BitVec 3)
  /-- FENCE_AR (R222) -/
  | fenceAr (pr : BitVec 2) (lsid : BitVec 5) (scope : BitVec 3)
  /-- INV (R223) -/
  | inv (pr : BitVec 2) (lsid : BitVec 5)
  /-- CLEAN (R224) -/
  | clean (pr : BitVec 2) (lsid : BitVec 5)
  /-- CHPOP (R333) -/
  | chpop (pr : BitVec 2) (lsid : BitVec 5) (dir : BitVec 2) (t0 : BitVec 8)
  /-- CHPEK (R333) -/
  | chpek (pr : BitVec 2) (lsid : BitVec 5) (dir : BitVec 2) (t0 : BitVec 8)
  /-- CHPSH (R333) -/
  | chpsh (pr : BitVec 2) (lsid : BitVec 5) (dir : BitVec 2)
  /-- MSEND (R336) -/
  | msend (pr : BitVec 2) (lsid : BitVec 5) (cls : BitVec 4)
  /-- SYSRD (R103) -/
  | sysrd (pr : BitVec 2) (imm : BitVec 12) (t0 : BitVec 8)
  /-- SYSWR (R103) -/
  | syswr (pr : BitVec 2) (imm : BitVec 12)
  /-- TNEW (R254) -/
  | tnew (pr : BitVec 2) (lsid : BitVec 5) (pin : BitVec 1) (hbm : BitVec 1) (arg : BitVec 32)
  /-- TLD (R259) -/
  | tld (pr : BitVec 2) (lsid : BitVec 5) (size : BitVec 3) (last : BitVec 1) (t0 : BitVec 8) (arg : BitVec 32)
  /-- TST (R257) -/
  | tst (pr : BitVec 2) (lsid : BitVec 5) (size : BitVec 3) (arg : BitVec 32)
  /-- TSEAL (R258) -/
  | tseal (pr : BitVec 2) (lsid : BitVec 5) (arg : BitVec 32)
  /-- TSEAL_END (R237) -/
  | tsealEnd (pr : BitVec 2) (lsid : BitVec 5) (arg : BitVec 32)
  /-- TWAIT (R260) -/
  | twait (pr : BitVec 2) (lsid : BitVec 5) (t0 : BitVec 8) (arg : BitVec 32)
  /-- TQRY (R260) -/
  | tqry (pr : BitVec 2) (lsid : BitVec 5) (tile : BitVec 1) (t0 : BitVec 8) (arg : BitVec 32)
  /-- THOLD (R261) -/
  | thold (pr : BitVec 2) (lsid : BitVec 5) (arg : BitVec 32)
  /-- TREL (R261) -/
  | trel (pr : BitVec 2) (lsid : BitVec 5) (arg : BitVec 32)
  /-- TFORK (R255) -/
  | tfork (pr : BitVec 2) (lsid : BitVec 5) (arg : BitVec 32)
  /-- TALIAS (R256) -/
  | talias (pr : BitVec 2) (lsid : BitVec 5) (arg : BitVec 32)
  /-- TGUARD (R262) -/
  | tguard (pr : BitVec 2) (lsid : BitVec 5) (arg : BitVec 32)
  /-- TSUB (R263) -/
  | tsub (pr : BitVec 2) (lsid : BitVec 5) (arg : BitVec 32)
  /-- TPIN (R264) -/
  | tpin (pr : BitVec 2) (lsid : BitVec 5) (arg : BitVec 32)
  /-- TUNPIN (R264) -/
  | tunpin (pr : BitVec 2) (lsid : BitVec 5) (arg : BitVec 32)
  /-- TMOVE (R264) -/
  | tmove (pr : BitVec 2) (lsid : BitVec 5) (hbm : BitVec 1) (arg : BitVec 32)
  /-- TNEW_LOC (R254) -/
  | tnewLoc (pr : BitVec 2) (lsid : BitVec 5) (arg : BitVec 32)
  /-- TLD_LOC (R259) -/
  | tldLoc (pr : BitVec 2) (lsid : BitVec 5) (size : BitVec 3) (last : BitVec 1) (t0 : BitVec 8) (arg : BitVec 32)
  /-- TST_LOC (R257) -/
  | tstLoc (pr : BitVec 2) (lsid : BitVec 5) (size : BitVec 3) (arg : BitVec 32)
  /-- TSEAL_LOC (R258) -/
  | tsealLoc (pr : BitVec 2) (lsid : BitVec 5) (fin : BitVec 1) (arg : BitVec 32)
  /-- TWAIT_LOC (R260) -/
  | twaitLoc (pr : BitVec 2) (lsid : BitVec 5) (t0 : BitVec 8) (arg : BitVec 32)
  /-- TQRY_LOC (R260) -/
  | tqryLoc (pr : BitVec 2) (lsid : BitVec 5) (t0 : BitVec 8) (arg : BitVec 32)
  /-- THOLD_LOC (R261) -/
  | tholdLoc (pr : BitVec 2) (lsid : BitVec 5) (arg : BitVec 32)
  /-- TREL_LOC (R261) -/
  | trelLoc (pr : BitVec 2) (lsid : BitVec 5) (arg : BitVec 32)
  /-- TFORK_LOC (R255) -/
  | tforkLoc (pr : BitVec 2) (lsid : BitVec 5) (arg : BitVec 32)
  /-- TALIAS_LOC (R256) -/
  | taliasLoc (pr : BitVec 2) (lsid : BitVec 5) (arg : BitVec 32)
  /-- MCFG (R309) -/
  | mcfg (pr : BitVec 2) (lsid : BitVec 5) (arg : BitVec 32)
  /-- MLDS (R310) -/
  | mlds (pr : BitVec 2) (lsid : BitVec 5) (tr : BitVec 1) (arg : BitVec 32)
  /-- MSWAP (R311) -/
  | mswap (pr : BitVec 2) (lsid : BitVec 5) (arg : BitVec 32)
  /-- MSTR (R312) -/
  | mstr (pr : BitVec 2) (lsid : BitVec 5) (arg : BitVec 32)
  /-- MZERO (R313) -/
  | mzero (pr : BitVec 2) (lsid : BitVec 5) (rows : BitVec 5) (arg : BitVec 32)
  /-- MDRN (R314) -/
  | mdrn (pr : BitVec 2) (lsid : BitVec 5) (ofmt : BitVec 3) (inf : BitVec 1) (clr : BitVec 1) (arg : BitVec 32)
  /-- XCOPY (R324) -/
  | xcopy (pr : BitVec 2) (lsid : BitVec 5) (arg : BitVec 32)
  /-- XCOPY_EXP (R325) -/
  | xcopyExp (pr : BitVec 2) (lsid : BitVec 5) (arg : BitVec 32)
  /-- XGATH (R326) -/
  | xgath (pr : BitVec 2) (lsid : BitVec 5) (es : BitVec 3) (arg : BitVec 32)
  /-- XSCAT (R326) -/
  | xscat (pr : BitVec 2) (lsid : BitVec 5) (es : BitVec 3) (arg : BitVec 32)
  /-- XFILL (R327) -/
  | xfill (pr : BitVec 2) (lsid : BitVec 5) (arg : BitVec 32)
  /-- XCAN (R330) -/
  | xcan (pr : BitVec 2) (lsid : BitVec 5) (loc : BitVec 1) (arg : BitVec 32)
  /-- XPUT (R351) -/
  | xput (pr : BitVec 2) (lsid : BitVec 5) (arg : BitVec 32)
  /-- XPUT_EFQ (R353) -/
  | xputEfq (pr : BitVec 2) (lsid : BitVec 5) (fold : BitVec 1) (ofmt : BitVec 2) (ifmt : BitVec 1) (arg : BitVec 32)
  /-- XPUT_FOLD (R355) -/
  | xputFold (pr : BitVec 2) (lsid : BitVec 5) (ifmt : BitVec 1) (arg : BitVec 32)
  /-- XGET (R351) -/
  | xget (pr : BitVec 2) (lsid : BitVec 5) (arg : BitVec 32)
  /-- SNEW (R291) -/
  | snew (pr : BitVec 2) (lsid : BitVec 5) (t0 : BitVec 8) (arg : BitVec 32)
  /-- SARR (R292) -/
  | sarr (pr : BitVec 2) (lsid : BitVec 5) (fin : BitVec 1) (arg : BitVec 32)
  /-- SSET_PDONE (R293) -/
  | ssetPdone (pr : BitVec 2) (lsid : BitVec 5) (arg : BitVec 32)
  /-- SSET_IDLE (R293) -/
  | ssetIdle (pr : BitVec 2) (lsid : BitVec 5) (arg : BitVec 32)
  /-- SSET_FINISH (R293) -/
  | ssetFinish (pr : BitVec 2) (lsid : BitVec 5) (arg : BitVec 32)
  /-- SSET_PAUSE (R293) -/
  | ssetPause (pr : BitVec 2) (lsid : BitVec 5) (arg : BitVec 32)
  /-- SSET_RESUME (R293) -/
  | ssetResume (pr : BitVec 2) (lsid : BitVec 5) (arg : BitVec 32)
  /-- SSET_CTX (R287) -/
  | ssetCtx (pr : BitVec 2) (lsid : BitVec 5) (arg : BitVec 32)
  /-- SSET_ATTR (R293) -/
  | ssetAttr (pr : BitVec 2) (lsid : BitVec 5) (arg : BitVec 32)
  /-- SSET_TOUCH (R293) -/
  | ssetTouch (pr : BitVec 2) (lsid : BitVec 5) (arg : BitVec 32)
  /-- SQRY (R294) -/
  | sqry (pr : BitVec 2) (lsid : BitVec 5) (t0 : BitVec 8) (arg : BitVec 32)
  /-- SBLD (R295) -/
  | sbld (pr : BitVec 2) (lsid : BitVec 5) (budget : BitVec 5) (arg : BitVec 32)
  /-- TRAP (R389) -/
  | trap (pr : BitVec 2) (arg : BitVec 32)
  /-- WFI (R391) -/
  | wfi (pr : BitVec 2) (arg : BitVec 32)
  /-- ALIGN (R392) -/
  | align (pr : BitVec 2) (arg : BitVec 32)
  /-- DBGBRK (R393) -/
  | dbgbrk (pr : BitVec 2) (arg : BitVec 32)
  /-- TLBINV (R394) -/
  | tlbinv (pr : BitVec 2) (arg : BitVec 32)
  /-- PMIG (R273) -/
  | pmig (pr : BitVec 2) (arg : BitVec 32)
  /-- BLOCK_FETCH (R37) -/
  | blockFetch
  /-- RESULT_RETURN (R43) -/
  | resultReturn
  /-- BLOCK_COMMIT (R56) -/
  | blockCommit
  /-- WATCHDOG_EXPIRY (R54) -/
  | watchdogExpiry
  /-- STORE_BUFFER_DRAIN (R50) -/
  | storeBufferDrain
  /-- HOME_ACCESS (R186) -/
  | homeAccess
  /-- L1_FILL (R181) -/
  | l1Fill
  /-- WAYMASK_WRITE (R185) -/
  | waymaskWrite
  /-- WAY_DRAIN (R185) -/
  | wayDrain
  /-- TBLK_WRITE (R381) -/
  | tblkWrite
  /-- TILE_ACK (R253) -/
  | tileAck
  /-- TNEW_AT_HOME (R254) -/
  | tnewAtHome
  /-- TLD_AT_HOME (R259) -/
  | tldAtHome
  /-- TST_AT_HOME (R257) -/
  | tstAtHome
  /-- TSEAL_AT_HOME (R237) -/
  | tsealAtHome
  /-- TWAIT_AT_HOME (R260) -/
  | twaitAtHome
  /-- TQRY_AT_HOME (R260) -/
  | tqryAtHome
  /-- THOLD_AT_HOME (R232) -/
  | tholdAtHome
  /-- DECREMENT_AT_HOME (R232) -/
  | decrementAtHome
  /-- TFORK_AT_HOME (R255) -/
  | tforkAtHome
  /-- TFORK_COPY_END (R255) -/
  | tforkCopyEnd
  /-- TALIAS_AT_HOME (R256) -/
  | taliasAtHome
  /-- TGUARD_AT_HOME (R238) -/
  | tguardAtHome
  /-- GUARD_RESULT (R238) -/
  | guardResult
  /-- TSUB_AT_HOME (R241) -/
  | tsubAtHome
  /-- TPIN_AT_HOME (R264) -/
  | tpinAtHome
  /-- TMOVE_AT_HOME (R264) -/
  | tmoveAtHome
  /-- WAITER_CANCEL (R239) -/
  | waiterCancel
  /-- READ_RETRY (R239) -/
  | readRetry
  /-- WATCH_RETRY (R239) -/
  | watchRetry
  /-- PAGE_WALK (R269) -/
  | pageWalk
  /-- HELD_TIMEOUT (R385) -/
  | heldTimeout
  /-- TRAP_MESSAGE_AT_COLLECTOR (R386) -/
  | trapMessageAtCollector
  /-- TLBINV_AT_DIE (R394) -/
  | tlbinvAtDie
  /-- TLBINV_ACK (R205) -/
  | tlbinvAck
  /-- PMIG_AT_TRANSLATOR (R274) -/
  | pmigAtTranslator
  /-- MIGRATION_LINE_MOVE (R275) -/
  | migrationLineMove
  /-- ENGINE_COMMAND_ARRIVAL (R320) -/
  | engineCommandArrival
  /-- ENGINE_COMMAND_START (R320) -/
  | engineCommandStart
  /-- ENGINE_SOURCE_ANSWER (R326) -/
  | engineSourceAnswer
  /-- ENGINE_COMMAND_COMPLETE (R328) -/
  | engineCommandComplete
  /-- ENGINE_COMMAND_FAIL (R329) -/
  | engineCommandFail
  /-- XCAN_AT_ENGINE (R330) -/
  | xcanAtEngine
  /-- MATRIX_COMMAND_START (R302) -/
  | matrixCommandStart
  /-- MLDS_FETCH_COMPLETE (R302) -/
  | mldsFetchComplete
  /-- MATRIX_COMMAND_COMPLETE (R304) -/
  | matrixCommandComplete
  /-- MATRIX_COMMAND_FAIL (R305) -/
  | matrixCommandFail
  /-- LINK_COMMAND_START (R350) -/
  | linkCommandStart
  /-- LINK_COMMAND_COMPLETE (R352) -/
  | linkCommandComplete
  /-- LINK_COMMAND_FAIL (R352) -/
  | linkCommandFail
  /-- WRITE (R351) -/
  | writeFlit
  /-- READ (R351) -/
  | readFlit
  /-- RDATA (R351) -/
  | rdataFlit
  /-- ACCESS (R344) -/
  | accessFlit
  /-- ACK (R344) -/
  | ackFlit
  /-- FAIL (R344) -/
  | failFlit
  /-- NOTICE (R242) -/
  | noticeFlit
  /-- DEC (R242) -/
  | decFlit
  /-- CREDIT (R343) -/
  | creditFlit
  /-- UNLISTED_TYPE_FLIT (R343) -/
  | unlistedTypeFlit
  /-- FLIT_CRC_REPLAY (R343) -/
  | flitCrcReplay
  /-- FOLD (R356) -/
  | fold
  /-- PORT_TRAINED (R342) -/
  | portTrained
  /-- LANE_FAILURE (R342) -/
  | laneFailure
  /-- PORT_DOWN (R342) -/
  | portDown
  /-- UCIE_REPLAY (R341) -/
  | ucieReplay
  /-- UCIE_RETRAIN_FAILURE (R341) -/
  | ucieRetrainFailure
  /-- AUTO_INPUT_SEAL (R280) -/
  | autoInputSeal
  /-- SILENCE_TIMEOUT (R280) -/
  | silenceTimeout
  /-- EVICTION_COMPLETE (R288) -/
  | evictionComplete
  /-- RESTORE_COMPLETE (R288) -/
  | restoreComplete
  /-- RESTORE_TIMEOUT (R288) -/
  | restoreTimeout
  /-- STEP_BUILD (R284) -/
  | stepBuild
  /-- BATCH_SEAL (R283) -/
  | batchSeal
  /-- LAUNCH_ACCEPT (R363) -/
  | launchAccept
  /-- PREREQUISITE_ANSWER (R369) -/
  | prerequisiteAnswer
  /-- NOTBEFORE_REACHED (R367) -/
  | notbeforeReached
  /-- CLASS_AGING (R370) -/
  | classAging
  /-- PLACEMENT_PASS (R371) -/
  | placementPass
  /-- LEASE_EXPIRY (R373) -/
  | leaseExpiry
  /-- PREEMPT_ARRIVAL (R395) -/
  | preemptArrival
  /-- PREEMPT_GRACE_EXPIRY (R395) -/
  | preemptGraceExpiry
  /-- CONTEXT_SAVE (R395) -/
  | contextSave
  /-- RETIREMENT (R374) -/
  | retirement
  /-- MESSAGE_ARRIVAL (R337) -/
  | messageArrival
  /-- MESSAGE_RETRY (R337) -/
  | messageRetry
  /-- HANDLER_START (R338) -/
  | handlerStart
  /-- WFI_TIMEOUT (R391) -/
  | wfiTimeout
  /-- YIELD_STANDOUT_END (R111) -/
  | yieldStandoutEnd
  /-- ALIGN_RELEASE (R378) -/
  | alignRelease
  /-- PTM_EXCHANGE (R400) -/
  | ptmExchange
  /-- SENSOR_REFRESH (R409) -/
  | sensorRefresh
  /-- THROTTLE_UPDATE (R410) -/
  | throttleUpdate
  /-- SUPPLY_SAG (R410) -/
  | supplySag
  /-- FUNDAMENTAL_RESET (R416) -/
  | fundamentalReset
  /-- DEVCTL_RESET (R416) -/
  | devctlReset
  /-- DEVCTL_GO (R416) -/
  | devctlGo
  /-- EXTINT_WRITE (R384) -/
  | extintWrite
  /-- PUBLICATION (R415) -/
  | publication
  /-- WINDOW_READ (R412) -/
  | windowRead
  /-- WINDOW_WRITE (R412) -/
  | windowWrite
  /-- CXL_MEM_ACCESS (R411) -/
  | cxlMemAccess
  /-- HOST_SNOOP (R204) -/
  | hostSnoop
  /-- ATTESTATION_REQUEST (R418) -/
  | attestationRequest
  /-- HOST_REGISTER_WRITE (R413) -/
  | hostRegisterWrite
  /-- UNCORRECTABLE_ERROR (R236) -/
  | uncorrectableError
  /-- MODULE_REGISTER_WRITE (R103) -/
  | moduleRegisterWrite
  /-- LARDER_REQUEST (R290) -/
  | larderRequest
  /-- LINK_SOURCE_ANSWER (R353) -/
  | linkSourceAnswer
  /-- ASID_TEARDOWN (R230) -/
  | asidTeardown
  deriving DecidableEq, Repr

end Sys2Proof
end

