-- ==== Sys2Proof/WellFormed.lean ====
section
/-! DEFINITION. The limits on an instruction's fields that the spec checks at predecode beyond the opcode map: shapes
(R68, R77, R107, R163, R166), immediates (R81, R121, R125), sizes, scopes and orders (R69-R73), register indices
(R96), and the zero fields of the X forms (R12, R289, R306, R321, R346, R388). A word that decodes to an instruction
outside them is ILLEGAL_INSTRUCTION. -/

namespace Sys2Proof

/-- Lane width in bits of an SHP code (R68, R106). -/
def laneW (s : BitVec 3) : Nat :=
  match s.toNat with
  | 0 => 64 | 1 => 32 | 2 => 64 | 3 => 32 | 4 => 16 | 5 => 8 | 6 => 4 | _ => 64

/-- Lane count of an SHP code (R68, R106). -/
def laneN (s : BitVec 3) : Nat :=
  match s.toNat with
  | 0 => 1 | 1 => 1 | 2 => 8 | 3 => 16 | 4 => 32 | 5 => 64 | 6 => 128 | _ => 1

/-- SHP 000-101 (R107). -/
def vecOrScalar (s : BitVec 3) : Bool := s.toNat < 6
/-- SHP 010-101 (R107). -/
def vecShape (s : BitVec 3) : Bool := 2 ≤ s.toNat && s.toNat < 6
/-- The shapes of a floating-point group: FP32 `.w`, `.v32`; BF16 and FP16 also `.v16` (R77). -/
def floatShape (ty : BitVec 2) (s : BitVec 3) : Bool :=
  ty != 3 && (s == 1 || s == 3 || (ty != 0 && s == 4))
/-- Width in bits of a CVT format code (R78, R163). -/
def cvtW (f : BitVec 4) : Nat :=
  match f.toNat with
  | 0 => 64 | 1 => 32 | 2 => 8 | 3 => 32 | 4 => 16 | 5 => 16 | _ => 8
/-- Order and scope of an atomic: `ord` is LOC and two order bits (R71). -/
def amoOrder (ord scope : BitVec 3) : Bool :=
  if ord == 0 || ord == 4 then scope == 0
  else if ord.toNat < 4 then 1 ≤ scope.toNat && scope.toNat < 6
  else scope == 1
/-- Indices that name a system register (R96-R101). -/
def assignedReg (i : Nat) : Bool :=
  i < 0x00A || (0x100 ≤ i && i ≤ 0x102) || (0x111 ≤ i && i ≤ 0x117) || (0x119 ≤ i && i ≤ 0x128) ||
  (0x200 ≤ i && i ≤ 0x203) || i == 0x210 || i == 0x300 || i == 0x301

/-- The instruction's fields obey every limit of predecode. -/
def Instr.wf : Instr → Bool
  | .br _ _ _ | .bri _ _ | .scall _ _ _ | .halt _ _ | .yield _ _ _ | .hret _ _ | .tret _ _ | .link _ _ _
  | .ldPf _ _ _ | .inv _ _ | .clean _ _ | .chpop _ _ _ _ | .chpek _ _ _ _ | .chpsh _ _ _ | .msend _ _ _
  | .tnew _ _ _ _ _ | .tseal _ _ _ | .tsealEnd _ _ _ | .twait _ _ _ _ | .tqry _ _ _ _ _ | .thold _ _ _
  | .trel _ _ _ | .tfork _ _ _ | .talias _ _ _ | .tguard _ _ _ | .tsub _ _ _ | .tpin _ _ _ | .tunpin _ _ _
  | .tmove _ _ _ _ | .tnewLoc _ _ _ | .tsealLoc _ _ _ _ | .twaitLoc _ _ _ _ | .tqryLoc _ _ _ _
  | .tholdLoc _ _ _ | .trelLoc _ _ _ | .tforkLoc _ _ _ | .taliasLoc _ _ _ | .sbld _ _ _ _ | .wfi _ _ => true
  | .genc _ s _ _ | .genu _ s _ _ | .nul _ s _ | .add _ s _ _ | .sub _ s _ _ | .mul _ s _ _ | .mulh _ s _ _
  | .mulhu _ s _ _ | .mulhsu _ s _ _ | .div _ s _ _ | .divu _ s _ _ | .rem _ s _ _ | .remu _ s _ _
  | .iand _ s _ _ | .ior _ s _ _ | .ixor _ s _ _ | .andn _ s _ _ | .orn _ s _ _ | .shl _ s _ _ | .shr _ s _ _
  | .sra _ s _ _ | .rol _ s _ _ | .clz _ s _ _ | .ctz _ s _ _ | .popc _ s _ _ | .brev _ s _ _ | .iabs _ s _ _
  | .imin _ s _ _ | .imax _ s _ _ | .minu _ s _ _ | .maxu _ s _ _ | .adds _ s _ _ | .subs _ s _ _
  | .addsu _ s _ _ | .subsu _ s _ _ | .teq _ s _ _ | .tne _ s _ _ | .tlt _ s _ _ | .tle _ s _ _ | .tltu _ s _ _
  | .tleu _ s _ _ | .addi _ s _ _ | .andi _ s _ _ | .ori _ s _ _ | .xori _ s _ _ | .muli _ s _ _
  | .teqi _ s _ _ | .tnei _ s _ _ | .tlti _ s _ _ | .tlei _ s _ _ | .tgti _ s _ _ => vecOrScalar s
  | .mov pr _ _ | .qpk4 pr _ _ | .qpk8E4m3 pr _ _ | .qpk8E5m2 pr _ _ | .qunpE2m1 pr _ _ | .qunpE4m3 pr _ _
  | .qunpE5m2 pr _ _ => pr != 1
  | .sel pr s _ _ => pr != 0 && vecOrScalar s
  | .sext _ s imm _ | .zext _ s imm _ => vecOrScalar s && 1 ≤ imm.toNat && imm.toNat < laneW s
  | .shli _ s imm _ | .shri _ s imm _ | .srai _ s imm _ => vecOrScalar s && imm.toNat < laneW s
  | .vperm _ s _ _ | .vzip _ s _ _ | .vunzip _ s _ _ | .vcmpr _ s _ _ | .vbcast _ s _ _ | .vscan _ s _ _
  | .vredadd _ s _ _ | .vredmin _ s _ _ | .vredmax _ s _ _ | .vredor _ s _ _ | .maskpop _ s _ _
  | .viota _ s _ _ => vecShape s
  | .vext _ s imm _ => vecShape s && imm.toNat < laneN s
  | .vins _ s lane _ _ => vecShape s && lane.toNat < laneN s
  | .vslide _ s imm _ => vecShape s && imm.toInt < laneN s && -(laneN s : Int) < imm.toInt
  | .fadd ty _ s _ _ | .fsub ty _ s _ _ | .fmul ty _ s _ _ | .fdiv ty _ s _ _ | .fmin ty _ s _ _
  | .fmax ty _ s _ _ | .fcpys ty _ s _ _ | .fdot ty _ s _ _ | .fscl ty _ s _ _ | .fsqrt ty _ s _ _
  | .frcp ty _ s _ _ | .frsq ty _ s _ _ | .fabs ty _ s _ _ | .fneg ty _ s _ _ | .fexp2 ty _ s _ _
  | .flog2 ty _ s _ _ | .fclass ty _ s _ _ | .fredadd ty _ s _ _ | .nfchk ty _ s _ _ | .feq ty _ s _ _
  | .flt ty _ s _ _ | .fle ty _ s _ _ | .fun ty _ s _ _ | .ffma ty s _ _ | .ffms ty s _ _ | .fnfma ty s _ _
  | .vmaxexp ty s _ _ => floatShape ty s
  | .cvt _ s inf round sfmt dfmt _ =>
      vecOrScalar s && sfmt.toNat < 8 && dfmt.toNat < 8 && sfmt != dfmt && round.toNat < 5 &&
      cvtW sfmt ≤ laneW s && cvtW dfmt ≤ laneW s && (inf == 0 || dfmt == 3 || dfmt == 4 || dfmt == 5 || dfmt == 7)
  | .cvtB8 _ s _ round ofmt _ prec _ | .cvtUb8 _ s _ round ofmt _ prec _ =>
      vecOrScalar s && ofmt.toNat < 8 && prec != 0 && round.toNat < 5 && cvtW ofmt ≤ laneW s
  | .lut4 pr s _ _ | .i4pk pr s _ _ => pr != 1 && (s == 6 || s == 4 || s == 3)
  | .ld _ _ size _ _ | .ldLast _ _ size _ _ | .ldLoc _ _ size _ _ | .ldLocacq _ _ size _ | .st _ _ size _
  | .stLoc _ _ size _ | .tld _ _ size _ _ _ | .tst _ _ size _ | .tldLoc _ _ size _ _ _ | .tstLoc _ _ size _ =>
      size.toNat < 5
  | .ldAcq _ _ size scope _ | .stRel _ _ size scope => size.toNat < 5 && 1 ≤ scope.toNat && scope.toNat < 6
  | .aaddRet _ _ _ scope ord _ | .aandRet _ _ _ scope ord _ | .aorRet _ _ _ scope ord _
  | .axorRet _ _ _ scope ord _ | .aminRet _ _ _ scope ord _ | .amaxRet _ _ _ scope ord _
  | .aminuRet _ _ _ scope ord _ | .amaxuRet _ _ _ scope ord _ | .axchgRet _ _ _ scope ord _
  | .acas _ _ _ scope ord _ | .afaddRet _ _ scope ord _ => amoOrder ord scope
  | .aaddNr _ _ _ scope ord _ | .aandNr _ _ _ scope ord _ | .aorNr _ _ _ scope ord _
  | .axorNr _ _ _ scope ord _ | .aminNr _ _ _ scope ord _ | .amaxNr _ _ _ scope ord _
  | .aminuNr _ _ _ scope ord _ | .amaxuNr _ _ _ scope ord _ | .axchgNr _ _ _ scope ord _
  | .afaddNr _ _ scope ord _ | .aorV _ _ scope ord _ | .aandV _ _ scope ord _ | .aaddV32 _ _ scope ord _ =>
      amoOrder ord scope && ord.extractLsb' 0 1 == 0#1
  | .fenceAcq _ _ scope | .fenceRel _ _ scope | .fenceAr _ _ scope => 1 ≤ scope.toNat && scope.toNat < 6
  | .sysrd _ imm _ | .syswr _ imm => assignedReg imm.toNat
  | .mcfg _ _ arg | .trap _ arg | .dbgbrk _ arg => arg.toNat < 2^16
  | .mlds _ _ _ arg | .mstr _ _ arg | .xcan _ _ _ arg | .snew _ _ _ arg | .sarr _ _ _ arg | .ssetPdone _ _ arg
  | .ssetIdle _ _ arg | .ssetFinish _ _ arg | .ssetPause _ _ arg | .ssetResume _ _ arg | .ssetCtx _ _ arg
  | .ssetAttr _ _ arg | .ssetTouch _ _ arg | .sqry _ _ _ arg | .align _ arg | .tlbinv _ arg | .pmig _ arg => arg == 0
  | .mswap _ _ arg => arg.toNat < 2^22
  | .mzero _ _ rows arg => arg.toNat < 2^29 && arg.toNat / 2^22 % 128 + 4 * (rows.toNat + 1) ≤ 128
  | .mdrn _ _ ofmt inf _ arg => arg == 0 && ofmt.toNat < 6 && (inf == 0 || ofmt == 1 || ofmt == 2 || ofmt == 4)
  | .xcopy _ _ arg | .xcopyExp _ _ arg | .xfill _ _ arg | .xput _ _ arg | .xputFold _ _ _ arg | .xget _ _ arg =>
      arg.toNat < 2^28
  | .xgath _ _ es arg | .xscat _ _ es arg => arg.toNat < 2^28 && es.toNat < 5
  | .xputEfq _ _ _ ofmt _ arg => arg.toNat < 2^28 && ofmt != 3
  | .blockFetch | .resultReturn | .blockCommit | .watchdogExpiry | .storeBufferDrain | .homeAccess | .l1Fill
  | .waymaskWrite | .wayDrain | .tblkWrite | .tileAck | .tnewAtHome | .tldAtHome | .tstAtHome | .tsealAtHome
  | .twaitAtHome | .tqryAtHome | .tholdAtHome | .decrementAtHome | .tforkAtHome | .tforkCopyEnd | .taliasAtHome
  | .tguardAtHome | .guardResult | .tsubAtHome | .tpinAtHome | .tmoveAtHome | .waiterCancel | .readRetry
  | .watchRetry | .pageWalk | .heldTimeout | .trapMessageAtCollector | .tlbinvAtDie | .tlbinvAck
  | .pmigAtTranslator | .migrationLineMove | .engineCommandArrival | .engineCommandStart | .engineSourceAnswer
  | .engineCommandComplete | .engineCommandFail | .xcanAtEngine | .matrixCommandStart | .mldsFetchComplete
  | .matrixCommandComplete | .matrixCommandFail | .linkCommandStart | .linkCommandComplete | .linkCommandFail
  | .writeFlit | .readFlit | .rdataFlit | .accessFlit | .ackFlit | .failFlit | .noticeFlit | .decFlit
  | .creditFlit | .unlistedTypeFlit | .flitCrcReplay | .fold | .portTrained | .laneFailure | .portDown
  | .ucieReplay | .ucieRetrainFailure | .autoInputSeal | .silenceTimeout | .evictionComplete | .restoreComplete
  | .restoreTimeout | .stepBuild | .batchSeal | .launchAccept | .prerequisiteAnswer | .notbeforeReached
  | .classAging | .placementPass | .leaseExpiry | .preemptArrival | .preemptGraceExpiry | .contextSave
  | .retirement | .messageArrival | .messageRetry | .handlerStart | .wfiTimeout | .yieldStandoutEnd
  | .alignRelease | .ptmExchange | .sensorRefresh | .throttleUpdate | .supplySag | .fundamentalReset
  | .devctlReset | .devctlGo | .extintWrite | .publication | .windowRead | .windowWrite | .cxlMemAccess
  | .hostSnoop | .attestationRequest | .hostRegisterWrite | .uncorrectableError | .moduleRegisterWrite
  | .larderRequest | .linkSourceAnswer | .asidTeardown => true

end Sys2Proof
end

