-- ==== Sys2Proof/Decode.lean ====
section
/-! DEFINITION. Decoding of instruction words (03), total on any two words, and the encoder written from the same
tables. `x` is the word after: the ARG32 of an X form (R67). Words of unassigned majors, of major 0x7F and with a
value the opcode map fixes otherwise give `none` (R64-R84); what a decoded instruction's fields may hold beyond that
is `Instr.wf`. -/

namespace Sys2Proof

/-- Bits `[lo+len-1 : lo]` of a word as a number (R7). -/
def at_ (n lo len : Nat) : Nat := n / 2^lo % 2^len

/-- Bits `[lo+len-1 : lo]` of a word (R7). -/
def fld (n lo len : Nat) : BitVec len := .ofNat len (n / 2^lo)

/-- Exits (R109, R339, R390). -/
def decodeExit (n op : Nat) : Option Instr :=
  match op with
  | 0x1 =>
    if at_ n 18 2 = 0 then some (.br (fld n 23 2) (fld n 20 3) (fld n 0 18)) else
    if at_ n 0 20 = 524288 then some (.bri (fld n 23 2) (fld n 20 3)) else
    if at_ n 18 2 = 3 then some (.scall (fld n 23 2) (fld n 20 3) (fld n 0 18)) else
    none
  | 0x2 =>
    if at_ n 0 20 = 0 then some (.halt (fld n 23 2) (fld n 20 3)) else
    none
  | 0x3 =>
    if at_ n 18 2 = 0 then some (.yield (fld n 23 2) (fld n 20 3) (fld n 0 18)) else
    none
  | 0x4 =>
    if at_ n 0 20 = 0 then some (.hret (fld n 23 2) (fld n 20 3)) else
    none
  | 0x5 =>
    if at_ n 0 20 = 0 then some (.tret (fld n 23 2) (fld n 20 3)) else
    none
  | _ => none

/-- LINK, constants, MOV, NUL, SEL (R113-R117). -/
def decodeConst (n op : Nat) : Option Instr :=
  match op with
  | 0x6 =>
    if at_ n 20 3 = 0 then some (.link (fld n 23 2) (fld n 8 12) (fld n 0 8)) else
    none
  | 0x7 =>
    some (.genc (fld n 23 2) (fld n 20 3) (fld n 8 12) (fld n 0 8))
  | 0x8 =>
    some (.genu (fld n 23 2) (fld n 20 3) (fld n 8 12) (fld n 0 8))
  | 0x9 =>
    if at_ n 16 7 = 0 then some (.mov (fld n 23 2) (fld n 8 8) (fld n 0 8)) else
    none
  | 0xa =>
    if at_ n 8 12 = 0 then some (.nul (fld n 23 2) (fld n 20 3) (fld n 0 8)) else
    none
  | 0xb =>
    if at_ n 16 4 = 0 then some (.sel (fld n 23 2) (fld n 20 3) (fld n 8 8) (fld n 0 8)) else
    none
  | _ => none

/-- Integer operations, tests, SEXT and ZEXT (R118-R123). -/
def decodeInt (n op : Nat) : Option Instr :=
  match op with
  | 0x10 =>
    if at_ n 16 4 = 0 then some (.add (fld n 23 2) (fld n 20 3) (fld n 8 8) (fld n 0 8)) else
    if at_ n 16 4 = 1 then some (.sub (fld n 23 2) (fld n 20 3) (fld n 8 8) (fld n 0 8)) else
    if at_ n 16 4 = 2 then some (.mul (fld n 23 2) (fld n 20 3) (fld n 8 8) (fld n 0 8)) else
    if at_ n 16 4 = 3 then some (.mulh (fld n 23 2) (fld n 20 3) (fld n 8 8) (fld n 0 8)) else
    if at_ n 16 4 = 4 then some (.mulhu (fld n 23 2) (fld n 20 3) (fld n 8 8) (fld n 0 8)) else
    if at_ n 16 4 = 5 then some (.mulhsu (fld n 23 2) (fld n 20 3) (fld n 8 8) (fld n 0 8)) else
    if at_ n 16 4 = 6 then some (.div (fld n 23 2) (fld n 20 3) (fld n 8 8) (fld n 0 8)) else
    if at_ n 16 4 = 7 then some (.divu (fld n 23 2) (fld n 20 3) (fld n 8 8) (fld n 0 8)) else
    if at_ n 16 4 = 8 then some (.rem (fld n 23 2) (fld n 20 3) (fld n 8 8) (fld n 0 8)) else
    if at_ n 16 4 = 9 then some (.remu (fld n 23 2) (fld n 20 3) (fld n 8 8) (fld n 0 8)) else
    none
  | 0x11 =>
    if at_ n 16 4 = 0 then some (.iand (fld n 23 2) (fld n 20 3) (fld n 8 8) (fld n 0 8)) else
    if at_ n 16 4 = 1 then some (.ior (fld n 23 2) (fld n 20 3) (fld n 8 8) (fld n 0 8)) else
    if at_ n 16 4 = 2 then some (.ixor (fld n 23 2) (fld n 20 3) (fld n 8 8) (fld n 0 8)) else
    if at_ n 16 4 = 3 then some (.andn (fld n 23 2) (fld n 20 3) (fld n 8 8) (fld n 0 8)) else
    if at_ n 16 4 = 4 then some (.orn (fld n 23 2) (fld n 20 3) (fld n 8 8) (fld n 0 8)) else
    if at_ n 16 4 = 5 then some (.shl (fld n 23 2) (fld n 20 3) (fld n 8 8) (fld n 0 8)) else
    if at_ n 16 4 = 6 then some (.shr (fld n 23 2) (fld n 20 3) (fld n 8 8) (fld n 0 8)) else
    if at_ n 16 4 = 7 then some (.sra (fld n 23 2) (fld n 20 3) (fld n 8 8) (fld n 0 8)) else
    if at_ n 16 4 = 8 then some (.rol (fld n 23 2) (fld n 20 3) (fld n 8 8) (fld n 0 8)) else
    none
  | 0x12 =>
    if at_ n 16 4 = 0 then some (.clz (fld n 23 2) (fld n 20 3) (fld n 8 8) (fld n 0 8)) else
    if at_ n 16 4 = 1 then some (.ctz (fld n 23 2) (fld n 20 3) (fld n 8 8) (fld n 0 8)) else
    if at_ n 16 4 = 2 then some (.popc (fld n 23 2) (fld n 20 3) (fld n 8 8) (fld n 0 8)) else
    if at_ n 16 4 = 3 then some (.brev (fld n 23 2) (fld n 20 3) (fld n 8 8) (fld n 0 8)) else
    if at_ n 16 4 = 4 then some (.iabs (fld n 23 2) (fld n 20 3) (fld n 8 8) (fld n 0 8)) else
    none
  | 0x13 =>
    some (.sext (fld n 23 2) (fld n 20 3) (fld n 8 12) (fld n 0 8))
  | 0x14 =>
    some (.zext (fld n 23 2) (fld n 20 3) (fld n 8 12) (fld n 0 8))
  | 0x15 =>
    if at_ n 16 4 = 0 then some (.imin (fld n 23 2) (fld n 20 3) (fld n 8 8) (fld n 0 8)) else
    if at_ n 16 4 = 1 then some (.imax (fld n 23 2) (fld n 20 3) (fld n 8 8) (fld n 0 8)) else
    if at_ n 16 4 = 2 then some (.minu (fld n 23 2) (fld n 20 3) (fld n 8 8) (fld n 0 8)) else
    if at_ n 16 4 = 3 then some (.maxu (fld n 23 2) (fld n 20 3) (fld n 8 8) (fld n 0 8)) else
    none
  | 0x16 =>
    if at_ n 16 4 = 0 then some (.adds (fld n 23 2) (fld n 20 3) (fld n 8 8) (fld n 0 8)) else
    if at_ n 16 4 = 1 then some (.subs (fld n 23 2) (fld n 20 3) (fld n 8 8) (fld n 0 8)) else
    if at_ n 16 4 = 2 then some (.addsu (fld n 23 2) (fld n 20 3) (fld n 8 8) (fld n 0 8)) else
    if at_ n 16 4 = 3 then some (.subsu (fld n 23 2) (fld n 20 3) (fld n 8 8) (fld n 0 8)) else
    none
  | 0x17 =>
    if at_ n 16 4 = 0 then some (.teq (fld n 23 2) (fld n 20 3) (fld n 8 8) (fld n 0 8)) else
    if at_ n 16 4 = 1 then some (.tne (fld n 23 2) (fld n 20 3) (fld n 8 8) (fld n 0 8)) else
    if at_ n 16 4 = 2 then some (.tlt (fld n 23 2) (fld n 20 3) (fld n 8 8) (fld n 0 8)) else
    if at_ n 16 4 = 3 then some (.tle (fld n 23 2) (fld n 20 3) (fld n 8 8) (fld n 0 8)) else
    if at_ n 16 4 = 4 then some (.tltu (fld n 23 2) (fld n 20 3) (fld n 8 8) (fld n 0 8)) else
    if at_ n 16 4 = 5 then some (.tleu (fld n 23 2) (fld n 20 3) (fld n 8 8) (fld n 0 8)) else
    none
  | _ => none

/-- Immediate forms (R121, R123). -/
def decodeImm (n op : Nat) : Option Instr :=
  match op with
  | 0x18 =>
    some (.addi (fld n 23 2) (fld n 20 3) (fld n 8 12) (fld n 0 8))
  | 0x19 =>
    some (.andi (fld n 23 2) (fld n 20 3) (fld n 8 12) (fld n 0 8))
  | 0x1a =>
    some (.ori (fld n 23 2) (fld n 20 3) (fld n 8 12) (fld n 0 8))
  | 0x1b =>
    some (.xori (fld n 23 2) (fld n 20 3) (fld n 8 12) (fld n 0 8))
  | 0x1c =>
    some (.shli (fld n 23 2) (fld n 20 3) (fld n 8 12) (fld n 0 8))
  | 0x1d =>
    some (.shri (fld n 23 2) (fld n 20 3) (fld n 8 12) (fld n 0 8))
  | 0x1e =>
    some (.srai (fld n 23 2) (fld n 20 3) (fld n 8 12) (fld n 0 8))
  | 0x1f =>
    some (.muli (fld n 23 2) (fld n 20 3) (fld n 8 12) (fld n 0 8))
  | 0x20 =>
    some (.teqi (fld n 23 2) (fld n 20 3) (fld n 8 12) (fld n 0 8))
  | 0x21 =>
    some (.tnei (fld n 23 2) (fld n 20 3) (fld n 8 12) (fld n 0 8))
  | 0x22 =>
    some (.tlti (fld n 23 2) (fld n 20 3) (fld n 8 12) (fld n 0 8))
  | 0x23 =>
    some (.tlei (fld n 23 2) (fld n 20 3) (fld n 8 12) (fld n 0 8))
  | 0x24 =>
    some (.tgti (fld n 23 2) (fld n 20 3) (fld n 8 12) (fld n 0 8))
  | _ => none

/-- Lane and permute forms (R124). -/
def decodeLane (n op : Nat) : Option Instr :=
  match op with
  | 0x30 =>
    if at_ n 16 4 = 0 then some (.vperm (fld n 23 2) (fld n 20 3) (fld n 8 8) (fld n 0 8)) else
    if at_ n 16 4 = 1 then some (.vzip (fld n 23 2) (fld n 20 3) (fld n 8 8) (fld n 0 8)) else
    if at_ n 16 4 = 2 then some (.vunzip (fld n 23 2) (fld n 20 3) (fld n 8 8) (fld n 0 8)) else
    if at_ n 16 4 = 3 then some (.vcmpr (fld n 23 2) (fld n 20 3) (fld n 8 8) (fld n 0 8)) else
    none
  | 0x31 =>
    if at_ n 16 4 = 0 then some (.vbcast (fld n 23 2) (fld n 20 3) (fld n 8 8) (fld n 0 8)) else
    if at_ n 16 4 = 1 then some (.vscan (fld n 23 2) (fld n 20 3) (fld n 8 8) (fld n 0 8)) else
    if at_ n 16 4 = 2 then some (.vredadd (fld n 23 2) (fld n 20 3) (fld n 8 8) (fld n 0 8)) else
    if at_ n 16 4 = 3 then some (.vredmin (fld n 23 2) (fld n 20 3) (fld n 8 8) (fld n 0 8)) else
    if at_ n 16 4 = 4 then some (.vredmax (fld n 23 2) (fld n 20 3) (fld n 8 8) (fld n 0 8)) else
    if at_ n 16 4 = 5 then some (.vredor (fld n 23 2) (fld n 20 3) (fld n 8 8) (fld n 0 8)) else
    if at_ n 16 4 = 6 then some (.maskpop (fld n 23 2) (fld n 20 3) (fld n 8 8) (fld n 0 8)) else
    none
  | 0x32 =>
    some (.vext (fld n 23 2) (fld n 20 3) (fld n 8 12) (fld n 0 8))
  | 0x33 =>
    some (.vins (fld n 23 2) (fld n 20 3) (fld n 16 4) (fld n 8 8) (fld n 0 8))
  | 0x34 =>
    some (.vslide (fld n 23 2) (fld n 20 3) (fld n 8 12) (fld n 0 8))
  | 0x35 =>
    some (.viota (fld n 23 2) (fld n 20 3) (fld n 8 12) (fld n 0 8))
  | _ => none

/-- Floating point, majors 0x40-0x4B (R150); group 3 is unassigned (R84). -/
def decodeFloat (n op : Nat) : Option Instr :=
  if 2^27 * 3 ≤ n % 2^29 then none else
  match op % 4 with
  | 0 =>
    if at_ n 16 4 = 0 then some (.fadd (fld n 27 2) (fld n 23 2) (fld n 20 3) (fld n 8 8) (fld n 0 8)) else
    if at_ n 16 4 = 1 then some (.fsub (fld n 27 2) (fld n 23 2) (fld n 20 3) (fld n 8 8) (fld n 0 8)) else
    if at_ n 16 4 = 2 then some (.fmul (fld n 27 2) (fld n 23 2) (fld n 20 3) (fld n 8 8) (fld n 0 8)) else
    if at_ n 16 4 = 3 then some (.fdiv (fld n 27 2) (fld n 23 2) (fld n 20 3) (fld n 8 8) (fld n 0 8)) else
    if at_ n 16 4 = 4 then some (.fmin (fld n 27 2) (fld n 23 2) (fld n 20 3) (fld n 8 8) (fld n 0 8)) else
    if at_ n 16 4 = 5 then some (.fmax (fld n 27 2) (fld n 23 2) (fld n 20 3) (fld n 8 8) (fld n 0 8)) else
    if at_ n 16 4 = 6 then some (.fcpys (fld n 27 2) (fld n 23 2) (fld n 20 3) (fld n 8 8) (fld n 0 8)) else
    if at_ n 16 4 = 7 then some (.fdot (fld n 27 2) (fld n 23 2) (fld n 20 3) (fld n 8 8) (fld n 0 8)) else
    if at_ n 16 4 = 8 then some (.fscl (fld n 27 2) (fld n 23 2) (fld n 20 3) (fld n 8 8) (fld n 0 8)) else
    none
  | 1 =>
    if at_ n 16 4 = 0 then some (.fsqrt (fld n 27 2) (fld n 23 2) (fld n 20 3) (fld n 8 8) (fld n 0 8)) else
    if at_ n 16 4 = 1 then some (.frcp (fld n 27 2) (fld n 23 2) (fld n 20 3) (fld n 8 8) (fld n 0 8)) else
    if at_ n 16 4 = 2 then some (.frsq (fld n 27 2) (fld n 23 2) (fld n 20 3) (fld n 8 8) (fld n 0 8)) else
    if at_ n 16 4 = 3 then some (.fabs (fld n 27 2) (fld n 23 2) (fld n 20 3) (fld n 8 8) (fld n 0 8)) else
    if at_ n 16 4 = 4 then some (.fneg (fld n 27 2) (fld n 23 2) (fld n 20 3) (fld n 8 8) (fld n 0 8)) else
    if at_ n 16 4 = 5 then some (.fexp2 (fld n 27 2) (fld n 23 2) (fld n 20 3) (fld n 8 8) (fld n 0 8)) else
    if at_ n 16 4 = 6 then some (.flog2 (fld n 27 2) (fld n 23 2) (fld n 20 3) (fld n 8 8) (fld n 0 8)) else
    if at_ n 16 4 = 7 then some (.fclass (fld n 27 2) (fld n 23 2) (fld n 20 3) (fld n 8 8) (fld n 0 8)) else
    if at_ n 16 4 = 8 then some (.fredadd (fld n 27 2) (fld n 23 2) (fld n 20 3) (fld n 8 8) (fld n 0 8)) else
    if at_ n 16 4 = 9 then some (.nfchk (fld n 27 2) (fld n 23 2) (fld n 20 3) (fld n 8 8) (fld n 0 8)) else
    none
  | 2 =>
    if at_ n 16 4 = 0 then some (.feq (fld n 27 2) (fld n 23 2) (fld n 20 3) (fld n 8 8) (fld n 0 8)) else
    if at_ n 16 4 = 1 then some (.flt (fld n 27 2) (fld n 23 2) (fld n 20 3) (fld n 8 8) (fld n 0 8)) else
    if at_ n 16 4 = 2 then some (.fle (fld n 27 2) (fld n 23 2) (fld n 20 3) (fld n 8 8) (fld n 0 8)) else
    if at_ n 16 4 = 3 then some (.fun (fld n 27 2) (fld n 23 2) (fld n 20 3) (fld n 8 8) (fld n 0 8)) else
    none
  | 3 =>
    if at_ n 23 2 = 3 ∧ at_ n 16 4 = 0 then some (.ffma (fld n 27 2) (fld n 20 3) (fld n 8 8) (fld n 0 8)) else
    if at_ n 23 2 = 3 ∧ at_ n 16 4 = 1 then some (.ffms (fld n 27 2) (fld n 20 3) (fld n 8 8) (fld n 0 8)) else
    if at_ n 23 2 = 3 ∧ at_ n 16 4 = 2 then some (.fnfma (fld n 27 2) (fld n 20 3) (fld n 8 8) (fld n 0 8)) else
    if at_ n 23 2 = 3 ∧ at_ n 16 4 = 3 then some (.vmaxexp (fld n 27 2) (fld n 20 3) (fld n 8 8) (fld n 0 8)) else
    none
  | _ => none

/-- Conversions and packing (R78-R80, R163-R166). -/
def decodeCvt (n op : Nat) : Option Instr :=
  match op with
  | 0x58 =>
    some (.cvt (fld n 23 2) (fld n 20 3) (fld n 19 1) (fld n 16 3) (fld n 12 4) (fld n 8 4) (fld n 0 8))
  | 0x59 =>
    some (.cvtB8 (fld n 23 2) (fld n 20 3) (fld n 19 1) (fld n 16 3) (fld n 12 4) (fld n 11 1) (fld n 8 3) (fld n 0 8))
  | 0x5a =>
    some (.cvtUb8 (fld n 23 2) (fld n 20 3) (fld n 19 1) (fld n 16 3) (fld n 12 4) (fld n 11 1) (fld n 8 3) (fld n 0 8))
  | 0x5b =>
    if at_ n 16 7 = 96 then some (.qpk4 (fld n 23 2) (fld n 8 8) (fld n 0 8)) else
    if at_ n 16 7 = 81 then some (.qpk8E4m3 (fld n 23 2) (fld n 8 8) (fld n 0 8)) else
    if at_ n 16 7 = 82 then some (.qpk8E5m2 (fld n 23 2) (fld n 8 8) (fld n 0 8)) else
    if at_ n 16 7 = 99 then some (.qunpE2m1 (fld n 23 2) (fld n 8 8) (fld n 0 8)) else
    if at_ n 16 7 = 84 then some (.qunpE4m3 (fld n 23 2) (fld n 8 8) (fld n 0 8)) else
    if at_ n 16 7 = 85 then some (.qunpE5m2 (fld n 23 2) (fld n 8 8) (fld n 0 8)) else
    if at_ n 16 4 = 6 then some (.lut4 (fld n 23 2) (fld n 20 3) (fld n 8 8) (fld n 0 8)) else
    if at_ n 16 4 = 7 then some (.i4pk (fld n 23 2) (fld n 20 3) (fld n 8 8) (fld n 0 8)) else
    none
  | _ => none

/-- LD and ST (R70). -/
def decodeMem (n op : Nat) : Option Instr :=
  match op with
  | 0x60 =>
    if at_ n 12 3 = 0 then some (.ld (fld n 23 2) (fld n 18 5) (fld n 15 3) (fld n 8 4) (fld n 0 8)) else
    if at_ n 12 3 = 1 then some (.ldAcq (fld n 23 2) (fld n 18 5) (fld n 15 3) (fld n 8 4) (fld n 0 8)) else
    if at_ n 12 3 = 3 then some (.ldLast (fld n 23 2) (fld n 18 5) (fld n 15 3) (fld n 8 4) (fld n 0 8)) else
    if at_ n 12 6 = 36 ∧ at_ n 0 8 = 0 then some (.ldPf (fld n 23 2) (fld n 18 5) (fld n 8 4)) else
    if at_ n 12 3 = 5 then some (.ldLoc (fld n 23 2) (fld n 18 5) (fld n 15 3) (fld n 8 4) (fld n 0 8)) else
    if at_ n 8 7 = 97 then some (.ldLocacq (fld n 23 2) (fld n 18 5) (fld n 15 3) (fld n 0 8)) else
    none
  | 0x61 =>
    if at_ n 8 7 = 0 then some (.st (fld n 23 2) (fld n 18 5) (fld n 15 3) (fld n 0 8)) else
    if at_ n 12 3 = 2 ∧ at_ n 0 8 = 0 then some (.stRel (fld n 23 2) (fld n 18 5) (fld n 15 3) (fld n 8 4)) else
    if at_ n 8 7 = 80 then some (.stLoc (fld n 23 2) (fld n 18 5) (fld n 15 3) (fld n 0 8)) else
    none
  | _ => none

/-- Atomics, fences, INV, CLEAN (R71-R73). -/
def decodeAmo (n op : Nat) : Option Instr :=
  match op with
  | 0x68 =>
    if at_ n 11 4 = 0 then some (.aaddRet (fld n 25 1) (fld n 23 2) (fld n 18 5) (fld n 15 3) (fld n 8 3) (fld n 0 8)) else
    if at_ n 11 4 = 1 then some (.aandRet (fld n 25 1) (fld n 23 2) (fld n 18 5) (fld n 15 3) (fld n 8 3) (fld n 0 8)) else
    if at_ n 11 4 = 2 then some (.aorRet (fld n 25 1) (fld n 23 2) (fld n 18 5) (fld n 15 3) (fld n 8 3) (fld n 0 8)) else
    if at_ n 11 4 = 3 then some (.axorRet (fld n 25 1) (fld n 23 2) (fld n 18 5) (fld n 15 3) (fld n 8 3) (fld n 0 8)) else
    if at_ n 11 4 = 4 then some (.aminRet (fld n 25 1) (fld n 23 2) (fld n 18 5) (fld n 15 3) (fld n 8 3) (fld n 0 8)) else
    if at_ n 11 4 = 5 then some (.amaxRet (fld n 25 1) (fld n 23 2) (fld n 18 5) (fld n 15 3) (fld n 8 3) (fld n 0 8)) else
    if at_ n 11 4 = 6 then some (.aminuRet (fld n 25 1) (fld n 23 2) (fld n 18 5) (fld n 15 3) (fld n 8 3) (fld n 0 8)) else
    if at_ n 11 4 = 7 then some (.amaxuRet (fld n 25 1) (fld n 23 2) (fld n 18 5) (fld n 15 3) (fld n 8 3) (fld n 0 8)) else
    if at_ n 11 4 = 8 then some (.axchgRet (fld n 25 1) (fld n 23 2) (fld n 18 5) (fld n 15 3) (fld n 8 3) (fld n 0 8)) else
    if at_ n 11 4 = 9 then some (.acas (fld n 25 1) (fld n 23 2) (fld n 18 5) (fld n 15 3) (fld n 8 3) (fld n 0 8)) else
    if at_ n 11 4 = 10 then some (.afaddRet (fld n 23 2) (fld n 18 5) (fld n 15 3) (fld n 8 3) (fld n 0 8)) else
    none
  | 0x69 =>
    if at_ n 11 4 = 0 then some (.aaddRet (fld n 25 1) (fld n 23 2) (fld n 18 5) (fld n 15 3) (fld n 8 3) (fld n 0 8)) else
    if at_ n 11 4 = 1 then some (.aandRet (fld n 25 1) (fld n 23 2) (fld n 18 5) (fld n 15 3) (fld n 8 3) (fld n 0 8)) else
    if at_ n 11 4 = 2 then some (.aorRet (fld n 25 1) (fld n 23 2) (fld n 18 5) (fld n 15 3) (fld n 8 3) (fld n 0 8)) else
    if at_ n 11 4 = 3 then some (.axorRet (fld n 25 1) (fld n 23 2) (fld n 18 5) (fld n 15 3) (fld n 8 3) (fld n 0 8)) else
    if at_ n 11 4 = 4 then some (.aminRet (fld n 25 1) (fld n 23 2) (fld n 18 5) (fld n 15 3) (fld n 8 3) (fld n 0 8)) else
    if at_ n 11 4 = 5 then some (.amaxRet (fld n 25 1) (fld n 23 2) (fld n 18 5) (fld n 15 3) (fld n 8 3) (fld n 0 8)) else
    if at_ n 11 4 = 6 then some (.aminuRet (fld n 25 1) (fld n 23 2) (fld n 18 5) (fld n 15 3) (fld n 8 3) (fld n 0 8)) else
    if at_ n 11 4 = 7 then some (.amaxuRet (fld n 25 1) (fld n 23 2) (fld n 18 5) (fld n 15 3) (fld n 8 3) (fld n 0 8)) else
    if at_ n 11 4 = 8 then some (.axchgRet (fld n 25 1) (fld n 23 2) (fld n 18 5) (fld n 15 3) (fld n 8 3) (fld n 0 8)) else
    if at_ n 11 4 = 9 then some (.acas (fld n 25 1) (fld n 23 2) (fld n 18 5) (fld n 15 3) (fld n 8 3) (fld n 0 8)) else
    none
  | 0x6a =>
    if at_ n 8 4 = 0 then some (.aaddNr (fld n 25 1) (fld n 23 2) (fld n 18 5) (fld n 15 3) (fld n 12 3) (fld n 0 8)) else
    if at_ n 8 4 = 1 then some (.aandNr (fld n 25 1) (fld n 23 2) (fld n 18 5) (fld n 15 3) (fld n 12 3) (fld n 0 8)) else
    if at_ n 8 4 = 2 then some (.aorNr (fld n 25 1) (fld n 23 2) (fld n 18 5) (fld n 15 3) (fld n 12 3) (fld n 0 8)) else
    if at_ n 8 4 = 3 then some (.axorNr (fld n 25 1) (fld n 23 2) (fld n 18 5) (fld n 15 3) (fld n 12 3) (fld n 0 8)) else
    if at_ n 8 4 = 4 then some (.aminNr (fld n 25 1) (fld n 23 2) (fld n 18 5) (fld n 15 3) (fld n 12 3) (fld n 0 8)) else
    if at_ n 8 4 = 5 then some (.amaxNr (fld n 25 1) (fld n 23 2) (fld n 18 5) (fld n 15 3) (fld n 12 3) (fld n 0 8)) else
    if at_ n 8 4 = 6 then some (.aminuNr (fld n 25 1) (fld n 23 2) (fld n 18 5) (fld n 15 3) (fld n 12 3) (fld n 0 8)) else
    if at_ n 8 4 = 7 then some (.amaxuNr (fld n 25 1) (fld n 23 2) (fld n 18 5) (fld n 15 3) (fld n 12 3) (fld n 0 8)) else
    if at_ n 8 4 = 8 then some (.axchgNr (fld n 25 1) (fld n 23 2) (fld n 18 5) (fld n 15 3) (fld n 12 3) (fld n 0 8)) else
    if at_ n 8 4 = 10 then some (.afaddNr (fld n 23 2) (fld n 18 5) (fld n 15 3) (fld n 12 3) (fld n 0 8)) else
    none
  | 0x6b =>
    if at_ n 8 4 = 0 then some (.aaddNr (fld n 25 1) (fld n 23 2) (fld n 18 5) (fld n 15 3) (fld n 12 3) (fld n 0 8)) else
    if at_ n 8 4 = 1 then some (.aandNr (fld n 25 1) (fld n 23 2) (fld n 18 5) (fld n 15 3) (fld n 12 3) (fld n 0 8)) else
    if at_ n 8 4 = 2 then some (.aorNr (fld n 25 1) (fld n 23 2) (fld n 18 5) (fld n 15 3) (fld n 12 3) (fld n 0 8)) else
    if at_ n 8 4 = 3 then some (.axorNr (fld n 25 1) (fld n 23 2) (fld n 18 5) (fld n 15 3) (fld n 12 3) (fld n 0 8)) else
    if at_ n 8 4 = 4 then some (.aminNr (fld n 25 1) (fld n 23 2) (fld n 18 5) (fld n 15 3) (fld n 12 3) (fld n 0 8)) else
    if at_ n 8 4 = 5 then some (.amaxNr (fld n 25 1) (fld n 23 2) (fld n 18 5) (fld n 15 3) (fld n 12 3) (fld n 0 8)) else
    if at_ n 8 4 = 6 then some (.aminuNr (fld n 25 1) (fld n 23 2) (fld n 18 5) (fld n 15 3) (fld n 12 3) (fld n 0 8)) else
    if at_ n 8 4 = 7 then some (.amaxuNr (fld n 25 1) (fld n 23 2) (fld n 18 5) (fld n 15 3) (fld n 12 3) (fld n 0 8)) else
    if at_ n 8 4 = 8 then some (.axchgNr (fld n 25 1) (fld n 23 2) (fld n 18 5) (fld n 15 3) (fld n 12 3) (fld n 0 8)) else
    none
  | 0x6c =>
    if at_ n 8 4 = 0 then some (.aorV (fld n 23 2) (fld n 18 5) (fld n 15 3) (fld n 12 3) (fld n 0 8)) else
    if at_ n 8 4 = 1 then some (.aandV (fld n 23 2) (fld n 18 5) (fld n 15 3) (fld n 12 3) (fld n 0 8)) else
    if at_ n 8 4 = 2 then some (.aaddV32 (fld n 23 2) (fld n 18 5) (fld n 15 3) (fld n 12 3) (fld n 0 8)) else
    none
  | 0x6d =>
    if at_ n 0 15 = 0 then some (.fenceAcq (fld n 23 2) (fld n 18 5) (fld n 15 3)) else
    if at_ n 0 15 = 4096 then some (.fenceRel (fld n 23 2) (fld n 18 5) (fld n 15 3)) else
    if at_ n 0 15 = 8192 then some (.fenceAr (fld n 23 2) (fld n 18 5) (fld n 15 3)) else
    if at_ n 0 18 = 12288 then some (.inv (fld n 23 2) (fld n 18 5)) else
    if at_ n 0 18 = 16384 then some (.clean (fld n 23 2) (fld n 18 5)) else
    none
  | _ => none

/-- Channels and MSEND (R74). -/
def decodeChan (n op : Nat) : Option Instr :=
  match op with
  | 0x78 =>
    if at_ n 10 8 = 0 then some (.chpop (fld n 23 2) (fld n 18 5) (fld n 8 2) (fld n 0 8)) else
    if at_ n 10 8 = 32 then some (.chpek (fld n 23 2) (fld n 18 5) (fld n 8 2) (fld n 0 8)) else
    if at_ n 10 8 = 64 ∧ at_ n 0 8 = 0 then some (.chpsh (fld n 23 2) (fld n 18 5) (fld n 8 2)) else
    if at_ n 12 6 = 24 ∧ at_ n 0 8 = 0 then some (.msend (fld n 23 2) (fld n 18 5) (fld n 8 4)) else
    none
  | _ => none

/-- SYSRD, SYSWR (R102). -/
def decodeSysReg (n op : Nat) : Option Instr :=
  match op with
  | 0x7b =>
    if at_ n 20 3 = 0 then some (.sysrd (fld n 23 2) (fld n 8 12) (fld n 0 8)) else
    none
  | 0x7c =>
    if at_ n 20 3 = 0 ∧ at_ n 0 8 = 0 then some (.syswr (fld n 23 2) (fld n 8 12)) else
    none
  | _ => none

/-- Tile forms (R247); MOD bits that are not named are zero (R67). -/
def decodeTile (n : Nat) (x : Word32) : Option Instr :=
  match at_ n 13 5 with
  | 0 => if at_ n 10 3 = 0 ∧ at_ n 0 8 = 0 then some (.tnew (fld n 23 2) (fld n 18 5) (fld n 8 1) (fld n 9 1) x) else none
  | 1 => if at_ n 12 1 = 0 then some (.tld (fld n 23 2) (fld n 18 5) (fld n 8 3) (fld n 11 1) (fld n 0 8) x) else none
  | 2 => if at_ n 11 2 = 0 ∧ at_ n 0 8 = 0 then some (.tst (fld n 23 2) (fld n 18 5) (fld n 8 3) x) else none
  | 3 =>
    if at_ n 0 13 = 0 then some (.tseal (fld n 23 2) (fld n 18 5) x) else
    if at_ n 0 13 = 256 then some (.tsealEnd (fld n 23 2) (fld n 18 5) x) else
    none
  | 4 => if at_ n 8 5 = 0 then some (.twait (fld n 23 2) (fld n 18 5) (fld n 0 8) x) else none
  | 5 => if at_ n 9 4 = 0 then some (.tqry (fld n 23 2) (fld n 18 5) (fld n 8 1) (fld n 0 8) x) else none
  | 6 => if at_ n 0 13 = 0 then some (.thold (fld n 23 2) (fld n 18 5) x) else none
  | 7 => if at_ n 0 13 = 0 then some (.trel (fld n 23 2) (fld n 18 5) x) else none
  | 8 => if at_ n 0 13 = 0 then some (.tfork (fld n 23 2) (fld n 18 5) x) else none
  | 9 => if at_ n 0 13 = 0 then some (.talias (fld n 23 2) (fld n 18 5) x) else none
  | 10 => if at_ n 0 13 = 0 then some (.tguard (fld n 23 2) (fld n 18 5) x) else none
  | 11 => if at_ n 0 13 = 0 then some (.tsub (fld n 23 2) (fld n 18 5) x) else none
  | 12 => if at_ n 0 13 = 0 then some (.tpin (fld n 23 2) (fld n 18 5) x) else none
  | 13 => if at_ n 0 13 = 0 then some (.tunpin (fld n 23 2) (fld n 18 5) x) else none
  | 14 => if at_ n 9 4 = 0 ∧ at_ n 0 8 = 0 then some (.tmove (fld n 23 2) (fld n 18 5) (fld n 8 1) x) else none
  | _ => none

/-- Local tile forms (R247); MOD bits that are not named are zero (R67). -/
def decodeTileLoc (n : Nat) (x : Word32) : Option Instr :=
  match at_ n 13 5 with
  | 0 => if at_ n 0 13 = 0 then some (.tnewLoc (fld n 23 2) (fld n 18 5) x) else none
  | 1 => if at_ n 12 1 = 0 then some (.tldLoc (fld n 23 2) (fld n 18 5) (fld n 8 3) (fld n 11 1) (fld n 0 8) x) else none
  | 2 => if at_ n 11 2 = 0 ∧ at_ n 0 8 = 0 then some (.tstLoc (fld n 23 2) (fld n 18 5) (fld n 8 3) x) else none
  | 3 => if at_ n 9 4 = 0 ∧ at_ n 0 8 = 0 then some (.tsealLoc (fld n 23 2) (fld n 18 5) (fld n 8 1) x) else none
  | 4 => if at_ n 8 5 = 0 then some (.twaitLoc (fld n 23 2) (fld n 18 5) (fld n 0 8) x) else none
  | 5 => if at_ n 8 5 = 0 then some (.tqryLoc (fld n 23 2) (fld n 18 5) (fld n 0 8) x) else none
  | 6 => if at_ n 0 13 = 0 then some (.tholdLoc (fld n 23 2) (fld n 18 5) x) else none
  | 7 => if at_ n 0 13 = 0 then some (.trelLoc (fld n 23 2) (fld n 18 5) x) else none
  | 8 => if at_ n 0 13 = 0 then some (.tforkLoc (fld n 23 2) (fld n 18 5) x) else none
  | 9 => if at_ n 0 13 = 0 then some (.taliasLoc (fld n 23 2) (fld n 18 5) x) else none
  | _ => none

/-- Matrix forms (R306); MOD bits that are not named are zero (R67). -/
def decodeMatrix (n : Nat) (x : Word32) : Option Instr :=
  match at_ n 13 5 with
  | 0 => if at_ n 0 13 = 0 then some (.mcfg (fld n 23 2) (fld n 18 5) x) else none
  | 1 => if at_ n 9 4 = 0 ∧ at_ n 0 8 = 0 then some (.mlds (fld n 23 2) (fld n 18 5) (fld n 8 1) x) else none
  | 2 => if at_ n 0 13 = 0 then some (.mswap (fld n 23 2) (fld n 18 5) x) else none
  | 3 => if at_ n 0 13 = 0 then some (.mstr (fld n 23 2) (fld n 18 5) x) else none
  | 4 => if at_ n 0 8 = 0 then some (.mzero (fld n 23 2) (fld n 18 5) (fld n 8 5) x) else none
  | 5 => if at_ n 0 8 = 0 then some (.mdrn (fld n 23 2) (fld n 18 5) (fld n 8 3) (fld n 11 1) (fld n 12 1) x) else none
  | _ => none

/-- Engine forms (R321); MOD bits that are not named are zero (R67). -/
def decodeEngine (n : Nat) (x : Word32) : Option Instr :=
  match at_ n 13 5 with
  | 0 =>
    if at_ n 0 13 = 0 then some (.xcopy (fld n 23 2) (fld n 18 5) x) else
    if at_ n 0 13 = 256 then some (.xcopyExp (fld n 23 2) (fld n 18 5) x) else
    none
  | 1 => if at_ n 11 2 = 0 ∧ at_ n 0 8 = 0 then some (.xgath (fld n 23 2) (fld n 18 5) (fld n 8 3) x) else none
  | 2 => if at_ n 11 2 = 0 ∧ at_ n 0 8 = 0 then some (.xscat (fld n 23 2) (fld n 18 5) (fld n 8 3) x) else none
  | 3 => if at_ n 0 13 = 0 then some (.xfill (fld n 23 2) (fld n 18 5) x) else none
  | 4 => if at_ n 9 4 = 0 ∧ at_ n 0 8 = 0 then some (.xcan (fld n 23 2) (fld n 18 5) (fld n 8 1) x) else none
  | _ => none

/-- Link forms (R346); MOD bits that are not named are zero (R67). -/
def decodeLink (n : Nat) (x : Word32) : Option Instr :=
  match at_ n 13 5 with
  | 0 =>
    if at_ n 0 13 = 0 then some (.xput (fld n 23 2) (fld n 18 5) x) else
    if at_ n 0 9 = 256 then some (.xputEfq (fld n 23 2) (fld n 18 5) (fld n 9 1) (fld n 10 2) (fld n 12 1) x) else
    if at_ n 0 12 = 512 then some (.xputFold (fld n 23 2) (fld n 18 5) (fld n 12 1) x) else
    none
  | 1 => if at_ n 0 13 = 0 then some (.xget (fld n 23 2) (fld n 18 5) x) else none
  | _ => none

/-- Larder forms (R289); MOD bits that are not named are zero (R67). -/
def decodeLarder (n : Nat) (x : Word32) : Option Instr :=
  match at_ n 13 5 with
  | 0 => if at_ n 8 5 = 0 then some (.snew (fld n 23 2) (fld n 18 5) (fld n 0 8) x) else none
  | 1 => if at_ n 9 4 = 0 ∧ at_ n 0 8 = 0 then some (.sarr (fld n 23 2) (fld n 18 5) (fld n 8 1) x) else none
  | 2 =>
    if at_ n 0 13 = 0 then some (.ssetPdone (fld n 23 2) (fld n 18 5) x) else
    if at_ n 0 13 = 256 then some (.ssetIdle (fld n 23 2) (fld n 18 5) x) else
    if at_ n 0 13 = 512 then some (.ssetFinish (fld n 23 2) (fld n 18 5) x) else
    if at_ n 0 13 = 768 then some (.ssetPause (fld n 23 2) (fld n 18 5) x) else
    if at_ n 0 13 = 1024 then some (.ssetResume (fld n 23 2) (fld n 18 5) x) else
    if at_ n 0 13 = 1280 then some (.ssetCtx (fld n 23 2) (fld n 18 5) x) else
    if at_ n 0 13 = 1536 then some (.ssetAttr (fld n 23 2) (fld n 18 5) x) else
    if at_ n 0 13 = 1792 then some (.ssetTouch (fld n 23 2) (fld n 18 5) x) else
    none
  | 3 => if at_ n 8 5 = 0 then some (.sqry (fld n 23 2) (fld n 18 5) (fld n 0 8) x) else none
  | 4 => if at_ n 0 8 = 0 then some (.sbld (fld n 23 2) (fld n 18 5) (fld n 8 5) x) else none
  | _ => none

/-- System forms (R388, R273); MOD bits that are not named are zero (R67). -/
def decodeSystem (n : Nat) (x : Word32) : Option Instr :=
  match at_ n 13 5 with
  | 0 => if at_ n 18 5 = 0 ∧ at_ n 0 13 = 0 then some (.trap (fld n 23 2) x) else none
  | 1 => if at_ n 18 5 = 0 ∧ at_ n 0 13 = 0 then some (.wfi (fld n 23 2) x) else none
  | 2 => if at_ n 18 5 = 0 ∧ at_ n 0 13 = 0 then some (.align (fld n 23 2) x) else none
  | 3 => if at_ n 18 5 = 0 ∧ at_ n 0 13 = 0 then some (.dbgbrk (fld n 23 2) x) else none
  | 4 => if at_ n 18 5 = 0 ∧ at_ n 0 13 = 0 then some (.tlbinv (fld n 23 2) x) else none
  | 5 => if at_ n 18 5 = 0 ∧ at_ n 0 13 = 0 then some (.pmig (fld n 23 2) x) else none
  | _ => none

/-- A word from field values and their lowest bits. -/
def pack (fs : List (Nat × Nat)) : Word32 := .ofNat 32 ((fs.map fun f => f.1 * 2^f.2).sum)

/-- The instruction of a word, with the next word for the X forms (R65-R67, R83). -/
def decode (w x : Word32) : Option Instr :=
  let n := w.toNat
  let op := n / 2^25
  if op < 0x06 then decodeExit n op
  else if op < 0x0C then decodeConst n op
  else if op < 0x18 then decodeInt n op
  else if op < 0x25 then decodeImm n op
  else if op < 0x36 then decodeLane n op
  else if op < 0x40 then none
  else if op < 0x50 then decodeFloat n op
  else if op < 0x5C then decodeCvt n op
  else if op < 0x62 then decodeMem n op
  else if op < 0x6E then decodeAmo n op
  else match op with
    | 0x70 => decodeTile n x
    | 0x71 => decodeTileLoc n x
    | 0x74 => decodeMatrix n x
    | 0x76 => decodeEngine n x
    | 0x78 => decodeChan n op
    | 0x79 => decodeLink n x
    | 0x7A => decodeLarder n x
    | 0x7B => decodeSysReg n op
    | 0x7C => decodeSysReg n op
    | 0x7D => decodeSystem n x
    | _ => none

/-- The instruction of a word whose bits are `w`, numbered from the least significant bit of the first word. -/
def decodeTableWord (_nbits w : Nat) : Option Instr := decode (.ofNat 32 w) (.ofNat 32 (w / 2^32))

/-- The words of an instruction of a block body (R65-R76, R83); a step that is no instruction has none. -/
def encode : Instr → List Word32
  | .br pr e off => [pack [(1, 25), (pr.toNat, 23), (e.toNat, 20), (off.toNat, 0)]]
  | .bri pr e => [pack [(1, 25), (524288, 0), (pr.toNat, 23), (e.toNat, 20)]]
  | .scall pr e n => [pack [(1, 25), (3, 18), (pr.toNat, 23), (e.toNat, 20), (n.toNat, 0)]]
  | .halt pr e => [pack [(2, 25), (pr.toNat, 23), (e.toNat, 20)]]
  | .yield pr e off => [pack [(3, 25), (pr.toNat, 23), (e.toNat, 20), (off.toNat, 0)]]
  | .hret pr e => [pack [(4, 25), (pr.toNat, 23), (e.toNat, 20)]]
  | .tret pr e => [pack [(5, 25), (pr.toNat, 23), (e.toNat, 20)]]
  | .link pr imm t0 => [pack [(6, 25), (pr.toNat, 23), (imm.toNat, 8), (t0.toNat, 0)]]
  | .genc pr s imm t0 => [pack [(7, 25), (pr.toNat, 23), (s.toNat, 20), (imm.toNat, 8), (t0.toNat, 0)]]
  | .genu pr s imm t0 => [pack [(8, 25), (pr.toNat, 23), (s.toNat, 20), (imm.toNat, 8), (t0.toNat, 0)]]
  | .mov pr t1 t0 => [pack [(9, 25), (pr.toNat, 23), (t1.toNat, 8), (t0.toNat, 0)]]
  | .nul pr s t0 => [pack [(10, 25), (pr.toNat, 23), (s.toNat, 20), (t0.toNat, 0)]]
  | .sel pr s t1 t0 => [pack [(11, 25), (pr.toNat, 23), (s.toNat, 20), (t1.toNat, 8), (t0.toNat, 0)]]
  | .add pr s t1 t0 => [pack [(16, 25), (pr.toNat, 23), (s.toNat, 20), (t1.toNat, 8), (t0.toNat, 0)]]
  | .sub pr s t1 t0 => [pack [(16, 25), (1, 16), (pr.toNat, 23), (s.toNat, 20), (t1.toNat, 8), (t0.toNat, 0)]]
  | .mul pr s t1 t0 => [pack [(16, 25), (2, 16), (pr.toNat, 23), (s.toNat, 20), (t1.toNat, 8), (t0.toNat, 0)]]
  | .mulh pr s t1 t0 => [pack [(16, 25), (3, 16), (pr.toNat, 23), (s.toNat, 20), (t1.toNat, 8), (t0.toNat, 0)]]
  | .mulhu pr s t1 t0 => [pack [(16, 25), (4, 16), (pr.toNat, 23), (s.toNat, 20), (t1.toNat, 8), (t0.toNat, 0)]]
  | .mulhsu pr s t1 t0 => [pack [(16, 25), (5, 16), (pr.toNat, 23), (s.toNat, 20), (t1.toNat, 8), (t0.toNat, 0)]]
  | .div pr s t1 t0 => [pack [(16, 25), (6, 16), (pr.toNat, 23), (s.toNat, 20), (t1.toNat, 8), (t0.toNat, 0)]]
  | .divu pr s t1 t0 => [pack [(16, 25), (7, 16), (pr.toNat, 23), (s.toNat, 20), (t1.toNat, 8), (t0.toNat, 0)]]
  | .rem pr s t1 t0 => [pack [(16, 25), (8, 16), (pr.toNat, 23), (s.toNat, 20), (t1.toNat, 8), (t0.toNat, 0)]]
  | .remu pr s t1 t0 => [pack [(16, 25), (9, 16), (pr.toNat, 23), (s.toNat, 20), (t1.toNat, 8), (t0.toNat, 0)]]
  | .iand pr s t1 t0 => [pack [(17, 25), (pr.toNat, 23), (s.toNat, 20), (t1.toNat, 8), (t0.toNat, 0)]]
  | .ior pr s t1 t0 => [pack [(17, 25), (1, 16), (pr.toNat, 23), (s.toNat, 20), (t1.toNat, 8), (t0.toNat, 0)]]
  | .ixor pr s t1 t0 => [pack [(17, 25), (2, 16), (pr.toNat, 23), (s.toNat, 20), (t1.toNat, 8), (t0.toNat, 0)]]
  | .andn pr s t1 t0 => [pack [(17, 25), (3, 16), (pr.toNat, 23), (s.toNat, 20), (t1.toNat, 8), (t0.toNat, 0)]]
  | .orn pr s t1 t0 => [pack [(17, 25), (4, 16), (pr.toNat, 23), (s.toNat, 20), (t1.toNat, 8), (t0.toNat, 0)]]
  | .shl pr s t1 t0 => [pack [(17, 25), (5, 16), (pr.toNat, 23), (s.toNat, 20), (t1.toNat, 8), (t0.toNat, 0)]]
  | .shr pr s t1 t0 => [pack [(17, 25), (6, 16), (pr.toNat, 23), (s.toNat, 20), (t1.toNat, 8), (t0.toNat, 0)]]
  | .sra pr s t1 t0 => [pack [(17, 25), (7, 16), (pr.toNat, 23), (s.toNat, 20), (t1.toNat, 8), (t0.toNat, 0)]]
  | .rol pr s t1 t0 => [pack [(17, 25), (8, 16), (pr.toNat, 23), (s.toNat, 20), (t1.toNat, 8), (t0.toNat, 0)]]
  | .clz pr s t1 t0 => [pack [(18, 25), (pr.toNat, 23), (s.toNat, 20), (t1.toNat, 8), (t0.toNat, 0)]]
  | .ctz pr s t1 t0 => [pack [(18, 25), (1, 16), (pr.toNat, 23), (s.toNat, 20), (t1.toNat, 8), (t0.toNat, 0)]]
  | .popc pr s t1 t0 => [pack [(18, 25), (2, 16), (pr.toNat, 23), (s.toNat, 20), (t1.toNat, 8), (t0.toNat, 0)]]
  | .brev pr s t1 t0 => [pack [(18, 25), (3, 16), (pr.toNat, 23), (s.toNat, 20), (t1.toNat, 8), (t0.toNat, 0)]]
  | .iabs pr s t1 t0 => [pack [(18, 25), (4, 16), (pr.toNat, 23), (s.toNat, 20), (t1.toNat, 8), (t0.toNat, 0)]]
  | .sext pr s imm t0 => [pack [(19, 25), (pr.toNat, 23), (s.toNat, 20), (imm.toNat, 8), (t0.toNat, 0)]]
  | .zext pr s imm t0 => [pack [(20, 25), (pr.toNat, 23), (s.toNat, 20), (imm.toNat, 8), (t0.toNat, 0)]]
  | .imin pr s t1 t0 => [pack [(21, 25), (pr.toNat, 23), (s.toNat, 20), (t1.toNat, 8), (t0.toNat, 0)]]
  | .imax pr s t1 t0 => [pack [(21, 25), (1, 16), (pr.toNat, 23), (s.toNat, 20), (t1.toNat, 8), (t0.toNat, 0)]]
  | .minu pr s t1 t0 => [pack [(21, 25), (2, 16), (pr.toNat, 23), (s.toNat, 20), (t1.toNat, 8), (t0.toNat, 0)]]
  | .maxu pr s t1 t0 => [pack [(21, 25), (3, 16), (pr.toNat, 23), (s.toNat, 20), (t1.toNat, 8), (t0.toNat, 0)]]
  | .adds pr s t1 t0 => [pack [(22, 25), (pr.toNat, 23), (s.toNat, 20), (t1.toNat, 8), (t0.toNat, 0)]]
  | .subs pr s t1 t0 => [pack [(22, 25), (1, 16), (pr.toNat, 23), (s.toNat, 20), (t1.toNat, 8), (t0.toNat, 0)]]
  | .addsu pr s t1 t0 => [pack [(22, 25), (2, 16), (pr.toNat, 23), (s.toNat, 20), (t1.toNat, 8), (t0.toNat, 0)]]
  | .subsu pr s t1 t0 => [pack [(22, 25), (3, 16), (pr.toNat, 23), (s.toNat, 20), (t1.toNat, 8), (t0.toNat, 0)]]
  | .teq pr s t1 t0 => [pack [(23, 25), (pr.toNat, 23), (s.toNat, 20), (t1.toNat, 8), (t0.toNat, 0)]]
  | .tne pr s t1 t0 => [pack [(23, 25), (1, 16), (pr.toNat, 23), (s.toNat, 20), (t1.toNat, 8), (t0.toNat, 0)]]
  | .tlt pr s t1 t0 => [pack [(23, 25), (2, 16), (pr.toNat, 23), (s.toNat, 20), (t1.toNat, 8), (t0.toNat, 0)]]
  | .tle pr s t1 t0 => [pack [(23, 25), (3, 16), (pr.toNat, 23), (s.toNat, 20), (t1.toNat, 8), (t0.toNat, 0)]]
  | .tltu pr s t1 t0 => [pack [(23, 25), (4, 16), (pr.toNat, 23), (s.toNat, 20), (t1.toNat, 8), (t0.toNat, 0)]]
  | .tleu pr s t1 t0 => [pack [(23, 25), (5, 16), (pr.toNat, 23), (s.toNat, 20), (t1.toNat, 8), (t0.toNat, 0)]]
  | .addi pr s imm t0 => [pack [(24, 25), (pr.toNat, 23), (s.toNat, 20), (imm.toNat, 8), (t0.toNat, 0)]]
  | .andi pr s imm t0 => [pack [(25, 25), (pr.toNat, 23), (s.toNat, 20), (imm.toNat, 8), (t0.toNat, 0)]]
  | .ori pr s imm t0 => [pack [(26, 25), (pr.toNat, 23), (s.toNat, 20), (imm.toNat, 8), (t0.toNat, 0)]]
  | .xori pr s imm t0 => [pack [(27, 25), (pr.toNat, 23), (s.toNat, 20), (imm.toNat, 8), (t0.toNat, 0)]]
  | .shli pr s imm t0 => [pack [(28, 25), (pr.toNat, 23), (s.toNat, 20), (imm.toNat, 8), (t0.toNat, 0)]]
  | .shri pr s imm t0 => [pack [(29, 25), (pr.toNat, 23), (s.toNat, 20), (imm.toNat, 8), (t0.toNat, 0)]]
  | .srai pr s imm t0 => [pack [(30, 25), (pr.toNat, 23), (s.toNat, 20), (imm.toNat, 8), (t0.toNat, 0)]]
  | .muli pr s imm t0 => [pack [(31, 25), (pr.toNat, 23), (s.toNat, 20), (imm.toNat, 8), (t0.toNat, 0)]]
  | .teqi pr s imm t0 => [pack [(32, 25), (pr.toNat, 23), (s.toNat, 20), (imm.toNat, 8), (t0.toNat, 0)]]
  | .tnei pr s imm t0 => [pack [(33, 25), (pr.toNat, 23), (s.toNat, 20), (imm.toNat, 8), (t0.toNat, 0)]]
  | .tlti pr s imm t0 => [pack [(34, 25), (pr.toNat, 23), (s.toNat, 20), (imm.toNat, 8), (t0.toNat, 0)]]
  | .tlei pr s imm t0 => [pack [(35, 25), (pr.toNat, 23), (s.toNat, 20), (imm.toNat, 8), (t0.toNat, 0)]]
  | .tgti pr s imm t0 => [pack [(36, 25), (pr.toNat, 23), (s.toNat, 20), (imm.toNat, 8), (t0.toNat, 0)]]
  | .vperm pr s t1 t0 => [pack [(48, 25), (pr.toNat, 23), (s.toNat, 20), (t1.toNat, 8), (t0.toNat, 0)]]
  | .vzip pr s t1 t0 => [pack [(48, 25), (1, 16), (pr.toNat, 23), (s.toNat, 20), (t1.toNat, 8), (t0.toNat, 0)]]
  | .vunzip pr s t1 t0 => [pack [(48, 25), (2, 16), (pr.toNat, 23), (s.toNat, 20), (t1.toNat, 8), (t0.toNat, 0)]]
  | .vcmpr pr s t1 t0 => [pack [(48, 25), (3, 16), (pr.toNat, 23), (s.toNat, 20), (t1.toNat, 8), (t0.toNat, 0)]]
  | .vbcast pr s t1 t0 => [pack [(49, 25), (pr.toNat, 23), (s.toNat, 20), (t1.toNat, 8), (t0.toNat, 0)]]
  | .vscan pr s t1 t0 => [pack [(49, 25), (1, 16), (pr.toNat, 23), (s.toNat, 20), (t1.toNat, 8), (t0.toNat, 0)]]
  | .vredadd pr s t1 t0 => [pack [(49, 25), (2, 16), (pr.toNat, 23), (s.toNat, 20), (t1.toNat, 8), (t0.toNat, 0)]]
  | .vredmin pr s t1 t0 => [pack [(49, 25), (3, 16), (pr.toNat, 23), (s.toNat, 20), (t1.toNat, 8), (t0.toNat, 0)]]
  | .vredmax pr s t1 t0 => [pack [(49, 25), (4, 16), (pr.toNat, 23), (s.toNat, 20), (t1.toNat, 8), (t0.toNat, 0)]]
  | .vredor pr s t1 t0 => [pack [(49, 25), (5, 16), (pr.toNat, 23), (s.toNat, 20), (t1.toNat, 8), (t0.toNat, 0)]]
  | .maskpop pr s t1 t0 => [pack [(49, 25), (6, 16), (pr.toNat, 23), (s.toNat, 20), (t1.toNat, 8), (t0.toNat, 0)]]
  | .vext pr s imm t0 => [pack [(50, 25), (pr.toNat, 23), (s.toNat, 20), (imm.toNat, 8), (t0.toNat, 0)]]
  | .vins pr s lane t1 t0 => [pack [(51, 25), (pr.toNat, 23), (s.toNat, 20), (lane.toNat, 16), (t1.toNat, 8), (t0.toNat, 0)]]
  | .vslide pr s imm t0 => [pack [(52, 25), (pr.toNat, 23), (s.toNat, 20), (imm.toNat, 8), (t0.toNat, 0)]]
  | .viota pr s imm t0 => [pack [(53, 25), (pr.toNat, 23), (s.toNat, 20), (imm.toNat, 8), (t0.toNat, 0)]]
  | .fadd ty pr s t1 t0 => [pack [((64 + 4 * ty.toNat), 25), (pr.toNat, 23), (s.toNat, 20), (t1.toNat, 8), (t0.toNat, 0)]]
  | .fsub ty pr s t1 t0 => [pack [((64 + 4 * ty.toNat), 25), (1, 16), (pr.toNat, 23), (s.toNat, 20), (t1.toNat, 8), (t0.toNat, 0)]]
  | .fmul ty pr s t1 t0 => [pack [((64 + 4 * ty.toNat), 25), (2, 16), (pr.toNat, 23), (s.toNat, 20), (t1.toNat, 8), (t0.toNat, 0)]]
  | .fdiv ty pr s t1 t0 => [pack [((64 + 4 * ty.toNat), 25), (3, 16), (pr.toNat, 23), (s.toNat, 20), (t1.toNat, 8), (t0.toNat, 0)]]
  | .fmin ty pr s t1 t0 => [pack [((64 + 4 * ty.toNat), 25), (4, 16), (pr.toNat, 23), (s.toNat, 20), (t1.toNat, 8), (t0.toNat, 0)]]
  | .fmax ty pr s t1 t0 => [pack [((64 + 4 * ty.toNat), 25), (5, 16), (pr.toNat, 23), (s.toNat, 20), (t1.toNat, 8), (t0.toNat, 0)]]
  | .fcpys ty pr s t1 t0 => [pack [((64 + 4 * ty.toNat), 25), (6, 16), (pr.toNat, 23), (s.toNat, 20), (t1.toNat, 8), (t0.toNat, 0)]]
  | .fdot ty pr s t1 t0 => [pack [((64 + 4 * ty.toNat), 25), (7, 16), (pr.toNat, 23), (s.toNat, 20), (t1.toNat, 8), (t0.toNat, 0)]]
  | .fscl ty pr s t1 t0 => [pack [((64 + 4 * ty.toNat), 25), (8, 16), (pr.toNat, 23), (s.toNat, 20), (t1.toNat, 8), (t0.toNat, 0)]]
  | .fsqrt ty pr s t1 t0 => [pack [((65 + 4 * ty.toNat), 25), (pr.toNat, 23), (s.toNat, 20), (t1.toNat, 8), (t0.toNat, 0)]]
  | .frcp ty pr s t1 t0 => [pack [((65 + 4 * ty.toNat), 25), (1, 16), (pr.toNat, 23), (s.toNat, 20), (t1.toNat, 8), (t0.toNat, 0)]]
  | .frsq ty pr s t1 t0 => [pack [((65 + 4 * ty.toNat), 25), (2, 16), (pr.toNat, 23), (s.toNat, 20), (t1.toNat, 8), (t0.toNat, 0)]]
  | .fabs ty pr s t1 t0 => [pack [((65 + 4 * ty.toNat), 25), (3, 16), (pr.toNat, 23), (s.toNat, 20), (t1.toNat, 8), (t0.toNat, 0)]]
  | .fneg ty pr s t1 t0 => [pack [((65 + 4 * ty.toNat), 25), (4, 16), (pr.toNat, 23), (s.toNat, 20), (t1.toNat, 8), (t0.toNat, 0)]]
  | .fexp2 ty pr s t1 t0 => [pack [((65 + 4 * ty.toNat), 25), (5, 16), (pr.toNat, 23), (s.toNat, 20), (t1.toNat, 8), (t0.toNat, 0)]]
  | .flog2 ty pr s t1 t0 => [pack [((65 + 4 * ty.toNat), 25), (6, 16), (pr.toNat, 23), (s.toNat, 20), (t1.toNat, 8), (t0.toNat, 0)]]
  | .fclass ty pr s t1 t0 => [pack [((65 + 4 * ty.toNat), 25), (7, 16), (pr.toNat, 23), (s.toNat, 20), (t1.toNat, 8), (t0.toNat, 0)]]
  | .fredadd ty pr s t1 t0 => [pack [((65 + 4 * ty.toNat), 25), (8, 16), (pr.toNat, 23), (s.toNat, 20), (t1.toNat, 8), (t0.toNat, 0)]]
  | .nfchk ty pr s t1 t0 => [pack [((65 + 4 * ty.toNat), 25), (9, 16), (pr.toNat, 23), (s.toNat, 20), (t1.toNat, 8), (t0.toNat, 0)]]
  | .feq ty pr s t1 t0 => [pack [((66 + 4 * ty.toNat), 25), (pr.toNat, 23), (s.toNat, 20), (t1.toNat, 8), (t0.toNat, 0)]]
  | .flt ty pr s t1 t0 => [pack [((66 + 4 * ty.toNat), 25), (1, 16), (pr.toNat, 23), (s.toNat, 20), (t1.toNat, 8), (t0.toNat, 0)]]
  | .fle ty pr s t1 t0 => [pack [((66 + 4 * ty.toNat), 25), (2, 16), (pr.toNat, 23), (s.toNat, 20), (t1.toNat, 8), (t0.toNat, 0)]]
  | .fun ty pr s t1 t0 => [pack [((66 + 4 * ty.toNat), 25), (3, 16), (pr.toNat, 23), (s.toNat, 20), (t1.toNat, 8), (t0.toNat, 0)]]
  | .ffma ty s t1 t0 => [pack [((67 + 4 * ty.toNat), 25), (3, 23), (s.toNat, 20), (t1.toNat, 8), (t0.toNat, 0)]]
  | .ffms ty s t1 t0 => [pack [((67 + 4 * ty.toNat), 25), (3, 23), (1, 16), (s.toNat, 20), (t1.toNat, 8), (t0.toNat, 0)]]
  | .fnfma ty s t1 t0 => [pack [((67 + 4 * ty.toNat), 25), (3, 23), (2, 16), (s.toNat, 20), (t1.toNat, 8), (t0.toNat, 0)]]
  | .vmaxexp ty s t1 t0 => [pack [((67 + 4 * ty.toNat), 25), (3, 23), (3, 16), (s.toNat, 20), (t1.toNat, 8), (t0.toNat, 0)]]
  | .cvt pr s inf round sfmt dfmt t0 => [pack [(88, 25), (pr.toNat, 23), (s.toNat, 20), (inf.toNat, 19), (round.toNat, 16), (sfmt.toNat, 12), (dfmt.toNat, 8), (t0.toNat, 0)]]
  | .cvtB8 pr s inf round ofmt back prec t0 => [pack [(89, 25), (pr.toNat, 23), (s.toNat, 20), (inf.toNat, 19), (round.toNat, 16), (ofmt.toNat, 12), (back.toNat, 11), (prec.toNat, 8), (t0.toNat, 0)]]
  | .cvtUb8 pr s inf round ofmt back prec t0 => [pack [(90, 25), (pr.toNat, 23), (s.toNat, 20), (inf.toNat, 19), (round.toNat, 16), (ofmt.toNat, 12), (back.toNat, 11), (prec.toNat, 8), (t0.toNat, 0)]]
  | .qpk4 pr t1 t0 => [pack [(91, 25), (96, 16), (pr.toNat, 23), (t1.toNat, 8), (t0.toNat, 0)]]
  | .qpk8E4m3 pr t1 t0 => [pack [(91, 25), (81, 16), (pr.toNat, 23), (t1.toNat, 8), (t0.toNat, 0)]]
  | .qpk8E5m2 pr t1 t0 => [pack [(91, 25), (82, 16), (pr.toNat, 23), (t1.toNat, 8), (t0.toNat, 0)]]
  | .qunpE2m1 pr t1 t0 => [pack [(91, 25), (99, 16), (pr.toNat, 23), (t1.toNat, 8), (t0.toNat, 0)]]
  | .qunpE4m3 pr t1 t0 => [pack [(91, 25), (84, 16), (pr.toNat, 23), (t1.toNat, 8), (t0.toNat, 0)]]
  | .qunpE5m2 pr t1 t0 => [pack [(91, 25), (85, 16), (pr.toNat, 23), (t1.toNat, 8), (t0.toNat, 0)]]
  | .lut4 pr s t1 t0 => [pack [(91, 25), (6, 16), (pr.toNat, 23), (s.toNat, 20), (t1.toNat, 8), (t0.toNat, 0)]]
  | .i4pk pr s t1 t0 => [pack [(91, 25), (7, 16), (pr.toNat, 23), (s.toNat, 20), (t1.toNat, 8), (t0.toNat, 0)]]
  | .ld pr lsid size off t0 => [pack [(96, 25), (pr.toNat, 23), (lsid.toNat, 18), (size.toNat, 15), (off.toNat, 8), (t0.toNat, 0)]]
  | .ldAcq pr lsid size scope t0 => [pack [(96, 25), (1, 12), (pr.toNat, 23), (lsid.toNat, 18), (size.toNat, 15), (scope.toNat, 8), (t0.toNat, 0)]]
  | .ldLast pr lsid size off t0 => [pack [(96, 25), (3, 12), (pr.toNat, 23), (lsid.toNat, 18), (size.toNat, 15), (off.toNat, 8), (t0.toNat, 0)]]
  | .ldPf pr lsid off => [pack [(96, 25), (36, 12), (pr.toNat, 23), (lsid.toNat, 18), (off.toNat, 8)]]
  | .ldLoc pr lsid size off t0 => [pack [(96, 25), (5, 12), (pr.toNat, 23), (lsid.toNat, 18), (size.toNat, 15), (off.toNat, 8), (t0.toNat, 0)]]
  | .ldLocacq pr lsid size t0 => [pack [(96, 25), (97, 8), (pr.toNat, 23), (lsid.toNat, 18), (size.toNat, 15), (t0.toNat, 0)]]
  | .st pr lsid size off => [pack [(97, 25), (pr.toNat, 23), (lsid.toNat, 18), (size.toNat, 15), (off.toNat, 0)]]
  | .stRel pr lsid size scope => [pack [(97, 25), (2, 12), (pr.toNat, 23), (lsid.toNat, 18), (size.toNat, 15), (scope.toNat, 8)]]
  | .stLoc pr lsid size off => [pack [(97, 25), (80, 8), (pr.toNat, 23), (lsid.toNat, 18), (size.toNat, 15), (off.toNat, 0)]]
  | .aaddRet wide pr lsid scope ord t0 => [pack [((104 + wide.toNat), 25), (pr.toNat, 23), (lsid.toNat, 18), (scope.toNat, 15), (ord.toNat, 8), (t0.toNat, 0)]]
  | .aandRet wide pr lsid scope ord t0 => [pack [((104 + wide.toNat), 25), (1, 11), (pr.toNat, 23), (lsid.toNat, 18), (scope.toNat, 15), (ord.toNat, 8), (t0.toNat, 0)]]
  | .aorRet wide pr lsid scope ord t0 => [pack [((104 + wide.toNat), 25), (2, 11), (pr.toNat, 23), (lsid.toNat, 18), (scope.toNat, 15), (ord.toNat, 8), (t0.toNat, 0)]]
  | .axorRet wide pr lsid scope ord t0 => [pack [((104 + wide.toNat), 25), (3, 11), (pr.toNat, 23), (lsid.toNat, 18), (scope.toNat, 15), (ord.toNat, 8), (t0.toNat, 0)]]
  | .aminRet wide pr lsid scope ord t0 => [pack [((104 + wide.toNat), 25), (4, 11), (pr.toNat, 23), (lsid.toNat, 18), (scope.toNat, 15), (ord.toNat, 8), (t0.toNat, 0)]]
  | .amaxRet wide pr lsid scope ord t0 => [pack [((104 + wide.toNat), 25), (5, 11), (pr.toNat, 23), (lsid.toNat, 18), (scope.toNat, 15), (ord.toNat, 8), (t0.toNat, 0)]]
  | .aminuRet wide pr lsid scope ord t0 => [pack [((104 + wide.toNat), 25), (6, 11), (pr.toNat, 23), (lsid.toNat, 18), (scope.toNat, 15), (ord.toNat, 8), (t0.toNat, 0)]]
  | .amaxuRet wide pr lsid scope ord t0 => [pack [((104 + wide.toNat), 25), (7, 11), (pr.toNat, 23), (lsid.toNat, 18), (scope.toNat, 15), (ord.toNat, 8), (t0.toNat, 0)]]
  | .axchgRet wide pr lsid scope ord t0 => [pack [((104 + wide.toNat), 25), (8, 11), (pr.toNat, 23), (lsid.toNat, 18), (scope.toNat, 15), (ord.toNat, 8), (t0.toNat, 0)]]
  | .acas wide pr lsid scope ord t0 => [pack [((104 + wide.toNat), 25), (9, 11), (pr.toNat, 23), (lsid.toNat, 18), (scope.toNat, 15), (ord.toNat, 8), (t0.toNat, 0)]]
  | .afaddRet pr lsid scope ord t0 => [pack [(104, 25), (10, 11), (pr.toNat, 23), (lsid.toNat, 18), (scope.toNat, 15), (ord.toNat, 8), (t0.toNat, 0)]]
  | .aaddNr wide pr lsid scope ord off => [pack [((106 + wide.toNat), 25), (pr.toNat, 23), (lsid.toNat, 18), (scope.toNat, 15), (ord.toNat, 12), (off.toNat, 0)]]
  | .aandNr wide pr lsid scope ord off => [pack [((106 + wide.toNat), 25), (1, 8), (pr.toNat, 23), (lsid.toNat, 18), (scope.toNat, 15), (ord.toNat, 12), (off.toNat, 0)]]
  | .aorNr wide pr lsid scope ord off => [pack [((106 + wide.toNat), 25), (2, 8), (pr.toNat, 23), (lsid.toNat, 18), (scope.toNat, 15), (ord.toNat, 12), (off.toNat, 0)]]
  | .axorNr wide pr lsid scope ord off => [pack [((106 + wide.toNat), 25), (3, 8), (pr.toNat, 23), (lsid.toNat, 18), (scope.toNat, 15), (ord.toNat, 12), (off.toNat, 0)]]
  | .aminNr wide pr lsid scope ord off => [pack [((106 + wide.toNat), 25), (4, 8), (pr.toNat, 23), (lsid.toNat, 18), (scope.toNat, 15), (ord.toNat, 12), (off.toNat, 0)]]
  | .amaxNr wide pr lsid scope ord off => [pack [((106 + wide.toNat), 25), (5, 8), (pr.toNat, 23), (lsid.toNat, 18), (scope.toNat, 15), (ord.toNat, 12), (off.toNat, 0)]]
  | .aminuNr wide pr lsid scope ord off => [pack [((106 + wide.toNat), 25), (6, 8), (pr.toNat, 23), (lsid.toNat, 18), (scope.toNat, 15), (ord.toNat, 12), (off.toNat, 0)]]
  | .amaxuNr wide pr lsid scope ord off => [pack [((106 + wide.toNat), 25), (7, 8), (pr.toNat, 23), (lsid.toNat, 18), (scope.toNat, 15), (ord.toNat, 12), (off.toNat, 0)]]
  | .axchgNr wide pr lsid scope ord off => [pack [((106 + wide.toNat), 25), (8, 8), (pr.toNat, 23), (lsid.toNat, 18), (scope.toNat, 15), (ord.toNat, 12), (off.toNat, 0)]]
  | .afaddNr pr lsid scope ord off => [pack [(106, 25), (10, 8), (pr.toNat, 23), (lsid.toNat, 18), (scope.toNat, 15), (ord.toNat, 12), (off.toNat, 0)]]
  | .aorV pr lsid scope ord off => [pack [(108, 25), (pr.toNat, 23), (lsid.toNat, 18), (scope.toNat, 15), (ord.toNat, 12), (off.toNat, 0)]]
  | .aandV pr lsid scope ord off => [pack [(108, 25), (1, 8), (pr.toNat, 23), (lsid.toNat, 18), (scope.toNat, 15), (ord.toNat, 12), (off.toNat, 0)]]
  | .aaddV32 pr lsid scope ord off => [pack [(108, 25), (2, 8), (pr.toNat, 23), (lsid.toNat, 18), (scope.toNat, 15), (ord.toNat, 12), (off.toNat, 0)]]
  | .fenceAcq pr lsid scope => [pack [(109, 25), (pr.toNat, 23), (lsid.toNat, 18), (scope.toNat, 15)]]
  | .fenceRel pr lsid scope => [pack [(109, 25), (4096, 0), (pr.toNat, 23), (lsid.toNat, 18), (scope.toNat, 15)]]
  | .fenceAr pr lsid scope => [pack [(109, 25), (8192, 0), (pr.toNat, 23), (lsid.toNat, 18), (scope.toNat, 15)]]
  | .inv pr lsid => [pack [(109, 25), (12288, 0), (pr.toNat, 23), (lsid.toNat, 18)]]
  | .clean pr lsid => [pack [(109, 25), (16384, 0), (pr.toNat, 23), (lsid.toNat, 18)]]
  | .chpop pr lsid dir t0 => [pack [(120, 25), (pr.toNat, 23), (lsid.toNat, 18), (dir.toNat, 8), (t0.toNat, 0)]]
  | .chpek pr lsid dir t0 => [pack [(120, 25), (32, 10), (pr.toNat, 23), (lsid.toNat, 18), (dir.toNat, 8), (t0.toNat, 0)]]
  | .chpsh pr lsid dir => [pack [(120, 25), (64, 10), (pr.toNat, 23), (lsid.toNat, 18), (dir.toNat, 8)]]
  | .msend pr lsid cls => [pack [(120, 25), (24, 12), (pr.toNat, 23), (lsid.toNat, 18), (cls.toNat, 8)]]
  | .sysrd pr imm t0 => [pack [(123, 25), (pr.toNat, 23), (imm.toNat, 8), (t0.toNat, 0)]]
  | .syswr pr imm => [pack [(124, 25), (pr.toNat, 23), (imm.toNat, 8)]]
  | .tnew pr lsid pin hbm arg => [pack [(112, 25), (pr.toNat, 23), (lsid.toNat, 18), (pin.toNat, 8), (hbm.toNat, 9)], arg]
  | .tld pr lsid size last t0 arg => [pack [(112, 25), (1, 13), (pr.toNat, 23), (lsid.toNat, 18), (size.toNat, 8), (last.toNat, 11), (t0.toNat, 0)], arg]
  | .tst pr lsid size arg => [pack [(112, 25), (2, 13), (pr.toNat, 23), (lsid.toNat, 18), (size.toNat, 8)], arg]
  | .tseal pr lsid arg => [pack [(112, 25), (3, 13), (pr.toNat, 23), (lsid.toNat, 18)], arg]
  | .tsealEnd pr lsid arg => [pack [(112, 25), (3, 13), (1, 8), (pr.toNat, 23), (lsid.toNat, 18)], arg]
  | .twait pr lsid t0 arg => [pack [(112, 25), (4, 13), (pr.toNat, 23), (lsid.toNat, 18), (t0.toNat, 0)], arg]
  | .tqry pr lsid tile t0 arg => [pack [(112, 25), (5, 13), (pr.toNat, 23), (lsid.toNat, 18), (tile.toNat, 8), (t0.toNat, 0)], arg]
  | .thold pr lsid arg => [pack [(112, 25), (6, 13), (pr.toNat, 23), (lsid.toNat, 18)], arg]
  | .trel pr lsid arg => [pack [(112, 25), (7, 13), (pr.toNat, 23), (lsid.toNat, 18)], arg]
  | .tfork pr lsid arg => [pack [(112, 25), (8, 13), (pr.toNat, 23), (lsid.toNat, 18)], arg]
  | .talias pr lsid arg => [pack [(112, 25), (9, 13), (pr.toNat, 23), (lsid.toNat, 18)], arg]
  | .tguard pr lsid arg => [pack [(112, 25), (10, 13), (pr.toNat, 23), (lsid.toNat, 18)], arg]
  | .tsub pr lsid arg => [pack [(112, 25), (11, 13), (pr.toNat, 23), (lsid.toNat, 18)], arg]
  | .tpin pr lsid arg => [pack [(112, 25), (12, 13), (pr.toNat, 23), (lsid.toNat, 18)], arg]
  | .tunpin pr lsid arg => [pack [(112, 25), (13, 13), (pr.toNat, 23), (lsid.toNat, 18)], arg]
  | .tmove pr lsid hbm arg => [pack [(112, 25), (14, 13), (pr.toNat, 23), (lsid.toNat, 18), (hbm.toNat, 8)], arg]
  | .tnewLoc pr lsid arg => [pack [(113, 25), (pr.toNat, 23), (lsid.toNat, 18)], arg]
  | .tldLoc pr lsid size last t0 arg => [pack [(113, 25), (1, 13), (pr.toNat, 23), (lsid.toNat, 18), (size.toNat, 8), (last.toNat, 11), (t0.toNat, 0)], arg]
  | .tstLoc pr lsid size arg => [pack [(113, 25), (2, 13), (pr.toNat, 23), (lsid.toNat, 18), (size.toNat, 8)], arg]
  | .tsealLoc pr lsid fin arg => [pack [(113, 25), (3, 13), (pr.toNat, 23), (lsid.toNat, 18), (fin.toNat, 8)], arg]
  | .twaitLoc pr lsid t0 arg => [pack [(113, 25), (4, 13), (pr.toNat, 23), (lsid.toNat, 18), (t0.toNat, 0)], arg]
  | .tqryLoc pr lsid t0 arg => [pack [(113, 25), (5, 13), (pr.toNat, 23), (lsid.toNat, 18), (t0.toNat, 0)], arg]
  | .tholdLoc pr lsid arg => [pack [(113, 25), (6, 13), (pr.toNat, 23), (lsid.toNat, 18)], arg]
  | .trelLoc pr lsid arg => [pack [(113, 25), (7, 13), (pr.toNat, 23), (lsid.toNat, 18)], arg]
  | .tforkLoc pr lsid arg => [pack [(113, 25), (8, 13), (pr.toNat, 23), (lsid.toNat, 18)], arg]
  | .taliasLoc pr lsid arg => [pack [(113, 25), (9, 13), (pr.toNat, 23), (lsid.toNat, 18)], arg]
  | .mcfg pr lsid arg => [pack [(116, 25), (pr.toNat, 23), (lsid.toNat, 18)], arg]
  | .mlds pr lsid tr arg => [pack [(116, 25), (1, 13), (pr.toNat, 23), (lsid.toNat, 18), (tr.toNat, 8)], arg]
  | .mswap pr lsid arg => [pack [(116, 25), (2, 13), (pr.toNat, 23), (lsid.toNat, 18)], arg]
  | .mstr pr lsid arg => [pack [(116, 25), (3, 13), (pr.toNat, 23), (lsid.toNat, 18)], arg]
  | .mzero pr lsid rows arg => [pack [(116, 25), (4, 13), (pr.toNat, 23), (lsid.toNat, 18), (rows.toNat, 8)], arg]
  | .mdrn pr lsid ofmt inf clr arg => [pack [(116, 25), (5, 13), (pr.toNat, 23), (lsid.toNat, 18), (ofmt.toNat, 8), (inf.toNat, 11), (clr.toNat, 12)], arg]
  | .xcopy pr lsid arg => [pack [(118, 25), (pr.toNat, 23), (lsid.toNat, 18)], arg]
  | .xcopyExp pr lsid arg => [pack [(118, 25), (1, 8), (pr.toNat, 23), (lsid.toNat, 18)], arg]
  | .xgath pr lsid es arg => [pack [(118, 25), (1, 13), (pr.toNat, 23), (lsid.toNat, 18), (es.toNat, 8)], arg]
  | .xscat pr lsid es arg => [pack [(118, 25), (2, 13), (pr.toNat, 23), (lsid.toNat, 18), (es.toNat, 8)], arg]
  | .xfill pr lsid arg => [pack [(118, 25), (3, 13), (pr.toNat, 23), (lsid.toNat, 18)], arg]
  | .xcan pr lsid loc arg => [pack [(118, 25), (4, 13), (pr.toNat, 23), (lsid.toNat, 18), (loc.toNat, 8)], arg]
  | .xput pr lsid arg => [pack [(121, 25), (pr.toNat, 23), (lsid.toNat, 18)], arg]
  | .xputEfq pr lsid fold ofmt ifmt arg => [pack [(121, 25), (1, 8), (pr.toNat, 23), (lsid.toNat, 18), (fold.toNat, 9), (ofmt.toNat, 10), (ifmt.toNat, 12)], arg]
  | .xputFold pr lsid ifmt arg => [pack [(121, 25), (2, 8), (pr.toNat, 23), (lsid.toNat, 18), (ifmt.toNat, 12)], arg]
  | .xget pr lsid arg => [pack [(121, 25), (1, 13), (pr.toNat, 23), (lsid.toNat, 18)], arg]
  | .snew pr lsid t0 arg => [pack [(122, 25), (pr.toNat, 23), (lsid.toNat, 18), (t0.toNat, 0)], arg]
  | .sarr pr lsid fin arg => [pack [(122, 25), (1, 13), (pr.toNat, 23), (lsid.toNat, 18), (fin.toNat, 8)], arg]
  | .ssetPdone pr lsid arg => [pack [(122, 25), (2, 13), (pr.toNat, 23), (lsid.toNat, 18)], arg]
  | .ssetIdle pr lsid arg => [pack [(122, 25), (2, 13), (1, 8), (pr.toNat, 23), (lsid.toNat, 18)], arg]
  | .ssetFinish pr lsid arg => [pack [(122, 25), (2, 13), (2, 8), (pr.toNat, 23), (lsid.toNat, 18)], arg]
  | .ssetPause pr lsid arg => [pack [(122, 25), (2, 13), (3, 8), (pr.toNat, 23), (lsid.toNat, 18)], arg]
  | .ssetResume pr lsid arg => [pack [(122, 25), (2, 13), (4, 8), (pr.toNat, 23), (lsid.toNat, 18)], arg]
  | .ssetCtx pr lsid arg => [pack [(122, 25), (2, 13), (5, 8), (pr.toNat, 23), (lsid.toNat, 18)], arg]
  | .ssetAttr pr lsid arg => [pack [(122, 25), (2, 13), (6, 8), (pr.toNat, 23), (lsid.toNat, 18)], arg]
  | .ssetTouch pr lsid arg => [pack [(122, 25), (2, 13), (7, 8), (pr.toNat, 23), (lsid.toNat, 18)], arg]
  | .sqry pr lsid t0 arg => [pack [(122, 25), (3, 13), (pr.toNat, 23), (lsid.toNat, 18), (t0.toNat, 0)], arg]
  | .sbld pr lsid budget arg => [pack [(122, 25), (4, 13), (pr.toNat, 23), (lsid.toNat, 18), (budget.toNat, 8)], arg]
  | .trap pr arg => [pack [(125, 25), (pr.toNat, 23)], arg]
  | .wfi pr arg => [pack [(125, 25), (1, 13), (pr.toNat, 23)], arg]
  | .align pr arg => [pack [(125, 25), (2, 13), (pr.toNat, 23)], arg]
  | .dbgbrk pr arg => [pack [(125, 25), (3, 13), (pr.toNat, 23)], arg]
  | .tlbinv pr arg => [pack [(125, 25), (4, 13), (pr.toNat, 23)], arg]
  | .pmig pr arg => [pack [(125, 25), (5, 13), (pr.toNat, 23)], arg]
  | .blockFetch => []
  | .resultReturn => []
  | .blockCommit => []
  | .watchdogExpiry => []
  | .storeBufferDrain => []
  | .homeAccess => []
  | .l1Fill => []
  | .waymaskWrite => []
  | .wayDrain => []
  | .tblkWrite => []
  | .tileAck => []
  | .tnewAtHome => []
  | .tldAtHome => []
  | .tstAtHome => []
  | .tsealAtHome => []
  | .twaitAtHome => []
  | .tqryAtHome => []
  | .tholdAtHome => []
  | .decrementAtHome => []
  | .tforkAtHome => []
  | .tforkCopyEnd => []
  | .taliasAtHome => []
  | .tguardAtHome => []
  | .guardResult => []
  | .tsubAtHome => []
  | .tpinAtHome => []
  | .tmoveAtHome => []
  | .waiterCancel => []
  | .readRetry => []
  | .watchRetry => []
  | .pageWalk => []
  | .heldTimeout => []
  | .trapMessageAtCollector => []
  | .tlbinvAtDie => []
  | .tlbinvAck => []
  | .pmigAtTranslator => []
  | .migrationLineMove => []
  | .engineCommandArrival => []
  | .engineCommandStart => []
  | .engineSourceAnswer => []
  | .engineCommandComplete => []
  | .engineCommandFail => []
  | .xcanAtEngine => []
  | .matrixCommandStart => []
  | .mldsFetchComplete => []
  | .matrixCommandComplete => []
  | .matrixCommandFail => []
  | .linkCommandStart => []
  | .linkCommandComplete => []
  | .linkCommandFail => []
  | .writeFlit => []
  | .readFlit => []
  | .rdataFlit => []
  | .accessFlit => []
  | .ackFlit => []
  | .failFlit => []
  | .noticeFlit => []
  | .decFlit => []
  | .creditFlit => []
  | .unlistedTypeFlit => []
  | .flitCrcReplay => []
  | .fold => []
  | .portTrained => []
  | .laneFailure => []
  | .portDown => []
  | .ucieReplay => []
  | .ucieRetrainFailure => []
  | .autoInputSeal => []
  | .silenceTimeout => []
  | .evictionComplete => []
  | .restoreComplete => []
  | .restoreTimeout => []
  | .stepBuild => []
  | .batchSeal => []
  | .launchAccept => []
  | .prerequisiteAnswer => []
  | .notbeforeReached => []
  | .classAging => []
  | .placementPass => []
  | .leaseExpiry => []
  | .preemptArrival => []
  | .preemptGraceExpiry => []
  | .contextSave => []
  | .retirement => []
  | .messageArrival => []
  | .messageRetry => []
  | .handlerStart => []
  | .wfiTimeout => []
  | .yieldStandoutEnd => []
  | .alignRelease => []
  | .ptmExchange => []
  | .sensorRefresh => []
  | .throttleUpdate => []
  | .supplySag => []
  | .fundamentalReset => []
  | .devctlReset => []
  | .devctlGo => []
  | .extintWrite => []
  | .publication => []
  | .windowRead => []
  | .windowWrite => []
  | .cxlMemAccess => []
  | .hostSnoop => []
  | .attestationRequest => []
  | .hostRegisterWrite => []
  | .uncorrectableError => []
  | .moduleRegisterWrite => []
  | .larderRequest => []
  | .linkSourceAnswer => []
  | .asidTeardown => []

end Sys2Proof
end

