-- ==== Sys2Proof/Machine/Operands.lean ====
section
/-! DEFINITION. Tokens as operands and results: lanes, nulls, predicates and shapes (R38-R42, R58, R106). -/

namespace Sys2Proof.Machine

/-- Bits `[lo+len-1 : lo]` of a double (R7). -/
def bits (x : Word) (lo len : Nat) : Nat := x.toNat / 2^lo % 2^len

/-- The int64 of an n-bit field (R58). -/
def sextI (x n : Nat) : Int := if x % 2^n < 2^(n-1) then (x % 2^n : Nat) else (x % 2^n : Nat) - 2^n

/-- An integer as an n-bit number (R58: modulo 2^n). -/
def wrapN (x : Int) (n : Nat) : Nat := (x % 2^n).toNat

/-- SAT of R58 on integers. -/
def satI (x lo hi : Int) : Int := if x < lo then lo else if hi < x then hi else x

/-- Lane `i` of `w` bits (R8, R58). -/
def laneAt (t : Token) (w i : Nat) : Nat := t.pay.toNat / 2^(w * i) % 2^w

/-- Lane `i` of `w` bits is null: any byte it covers is null; a nibble by its byte (R39). -/
def laneNull (t : Token) (w i : Nat) : Bool :=
  if w < 8 then t.nul.getLsbD (i / 2) else t.nul.toNat / 2^(w / 8 * i) % 2^(w / 8) != 0

/-- A lane, `none` where it is null. -/
def laneOf (t : Token) (w i : Nat) : Option Nat := if laneNull t w i then none else some (laneAt t w i)

/-- Payload of lanes of `w` bits, a null lane as zero. -/
def packLanes (w : Nat) : List (Option Nat) → Nat
  | [] => 0
  | l :: ls => (l.getD 0) % 2^w + 2^w * packLanes w ls

/-- Null bits of lanes of `w ≥ 8` bits. -/
def packNulls (w : Nat) : List (Option Nat) → Nat
  | [] => 0
  | l :: ls => (if l.isNone then 2^(w / 8) - 1 else 0) + 2^(w / 8) * packNulls w ls

/-- Nibbles by bytes: a byte with a null nibble is null whole (R39). -/
def nibbleBytes : List (Option Nat) → List (Option Nat)
  | a :: b :: ls => (match a, b with | some x, some y => some (x % 16 + 16 * (y % 16)) | _, _ => none) :: nibbleBytes ls
  | [a] => [a]
  | [] => []

/-- A token of lanes of `w` bits; bytes beyond them are zero and not null (R38). -/
def ofLanes (w : Nat) (ls : List (Option Nat)) : Token :=
  if w < 8 then ⟨.ofNat 512 (packLanes 8 (nibbleBytes ls)), .ofNat 64 (packNulls 8 (nibbleBytes ls))⟩
  else ⟨.ofNat 512 (packLanes w ls), .ofNat 64 (packNulls w ls)⟩

/-- The lanes of a shape. -/
def lanesOf (s : BitVec 3) (t : Token) : List (Option Nat) := (List.range (laneN s)).map (laneOf t (laneW s))

/-- A token of shape `s`. -/
def mkTok (s : BitVec 3) (ls : List (Option Nat)) : Token := ofLanes (laneW s) ls

/-- null(s) (R58). -/
def nullTok (s : BitVec 3) : Token := mkTok s (List.replicate (laneN s) none)

/-- A `.d` token of a number. -/
def dTok (x : Nat) : Token := ⟨.ofNat 512 (x % 2^64), 0⟩

/-- A token of bytes, the rest zero and not null. -/
def bytesTok (d : List Byte) : Token := ⟨.ofNat 512 (packLanes 8 (d.map fun b => some b.toNat)), 0⟩

/-- A token of bytes some of which are null. -/
def optBytesTok (d : List (Option Byte)) : Token := ofLanes 8 (d.map fun b => b.map (·.toNat))

/-- Byte `j` of a token. -/
def tokByte (t : Token) (j : Nat) : Byte := .ofNat 8 (t.pay.toNat / 2^(8 * j))

/-- Bytes `0 … n-1` of a token, `none` where null. -/
def tokBytes (t : Token) (n : Nat) : List (Option Byte) :=
  (List.range n).map fun j => if t.nul.getLsbD j then none else some (tokByte t j)

/-- Lane `i` of a token in `.v64` (lane(·, .v64, i)). -/
def v64 (t : Token) (i : Nat) : Word := .ofNat 64 (laneAt t 64 i)

/-- Any of bytes `lo … lo+n-1` is null. -/
def anyNull (t : Token) (lo n : Nat) : Bool := t.nul.toNat / 2^lo % 2^n != 0

/-- Every one of bytes `0 … n-1` is null. -/
def allNull (t : Token) (n : Nat) : Bool := t.nul.toNat % 2^n == 2^n - 1

/-- A scalar predicate that matches its sense: PR 11 on 1, PR 10 on 0, never when byte 0 is null (R41). -/
def predMatches (pr : BitVec 2) (p : Token) : Bool :=
  !p.nul.getLsbD 0 && (p.pay.getLsbD 0 == (pr == 3))

/-- Bit `i` of a mask token is 1 and lies in no null byte (R41, R126). -/
def maskBit (p : Token) (i : Nat) : Bool := p.pay.getLsbD i && !p.nul.getLsbD (i / 8)

/-- PR 01 on lanes: a lane whose bit is not set is null (R41, R108). -/
def gateLanes (pr : BitVec 2) (p : Token) (ls : List (Option Nat)) : List (Option Nat) :=
  if pr == 1 then ls.zipIdx.map fun (l, i) => if maskBit p i then l else none else ls

/-- PR 01 on a whole result token of shape `s` (R41). -/
def gateTok (pr : BitVec 2) (s : BitVec 3) (p t : Token) : Token :=
  if pr == 1 then mkTok s (gateLanes pr p (lanesOf s t)) else t

/-- Merge of a write slot into a register of `n` bytes (R42): null bytes keep the old byte. -/
def mergeBytes (n : Nat) (old : Nat) (t : Token) : Nat :=
  packLanes 8 ((List.range n).map fun j =>
    some (if t.nul.getLsbD j then old / 2^(8 * j) % 256 else t.pay.toNat / 2^(8 * j) % 256))

end Sys2Proof.Machine
end

