-- ==== Sys2Proof/Machine/Flags.lean ====
section
/-! DEFINITION. Bits computed as flags: predicate tokens of tests (R122) and the fields of STATUS (R97). -/

namespace Sys2Proof.Machine

/-- The `.d` predicate token of a test on shape `s`: bit i for lane i; a scalar null lane makes it null, a vector
null lane gives 0 (R122, R156). -/
def predTok (s : BitVec 3) (ls : List (Option Bool)) : Token :=
  if s.toNat < 2 ∧ ls.head?.join.isNone then nullTok 0
  else dTok (packLanes 1 (ls.map fun l => some (if l == some true then 1 else 0)))

/-- STATUS.MODE: supervisor. -/
def statusMode (st : Word) : Bool := st.getLsbD 0
/-- STATUS.IE. -/
def statusIE (st : Word) : Bool := st.getLsbD 1
/-- STATUS.SS. -/
def statusSS (st : Word) : Bool := st.getLsbD 2
/-- STATUS at trap entry: PMODE := MODE, PIE := IE, MODE := 1, IE := 0 (R381). -/
def statusTrap (st : Word) : Word :=
  (st &&& ~~~(0x303 : Word)) ||| 1 ||| (if statusMode st then 0x100 else 0) ||| (if statusIE st then 0x200 else 0)
/-- STATUS at TRET: MODE := PMODE, IE := PIE (R390). -/
def statusRet (st : Word) : Word :=
  (st &&& ~~~(0x3 : Word)) ||| (if st.getLsbD 8 then 1 else 0) ||| (if st.getLsbD 9 then 2 else 0)

end Sys2Proof.Machine
end

