-- ==== Sys2Proof/Machine/State.lean ====
section
/-! DEFINITION. The state of one S4 module as plain data (R32 and the owning chapters), what can stop a step, and
the state after reset (R416). Sparse tables (`AMap`) list only what differs from reset; a core, strand or slice that
is not listed is as `Core.reset`, `Strand.reset`, `Slice.reset` say. -/

namespace Sys2Proof.Machine

/-- What stops the machine: nothing the spec describes does, so only the model's own question is here. -/
inductive Fault where
  /-- Raised by `step` when the agenda names a core, strand or body slot the module does not have (R10, R26).
  Safe: the machine has no such unit, so no behaviour of it is lost. -/
  | noSuchUnit
  deriving DecidableEq, Repr

/-- An instruction the model has no meaning for. -/
inductive Refusal where
  /-- Raised by a refused arm of `exec`. Safe: nothing can be proved of a run that ends so. -/
  | notModelled (mnemonic : String)
  deriving DecidableEq, Repr

/-! ## A strand and its block -/

/-- A trap to record: R381, R382. -/
structure TrapRec where
  cause : BitVec 8
  sub : BitVec 8
  tval : Word
  tblk : Word
  tlsid : BitVec 6
  resume : Word
  deriving DecidableEq, Repr

/-- A window slot: its word, the tokens in its operand and predicate slots, whether it has fired (R43), and the cycle from which
the tokens sent to it have arrived (R46; log 2, DESIGN CHOICE). -/
structure Slot where
  word : Word32
  a : Option Token
  b : Option Token
  p : Option Token
  fired : Bool
  from_ : Nat
  deriving DecidableEq, Repr

/-- A request to the local version table (R245): local tile number, version and what is asked. -/
inductive LTile where
  | tnew (size pend laddr refs : Nat) (fmt : BitVec 4)
  | tst (off : Nat) (d : List (Option Byte))
  | tseal (fin arr : Bool) (size : Nat)
  | thold
  | decrement
  | tfork (l ver n size laddr refs : Nat)
  | talias (l ver refs : Nat)
  deriving DecidableEq, Repr

/-- A held effect (R47) that has fired. -/
inductive Eff where
  /-- `rel` is the scope of a release, 0 for none (R192, R199) -/
  | store (g : Word) (loc : Bool) (rel : BitVec 4) (d : List (Option Byte))
  | amo (g : Word) (loc : Bool) (fn : BitVec 4) (wide : Bool) (b : BitVec 128) (rel : BitVec 4)
  | vamo (g : Word) (loc : Bool) (fn : BitVec 4) (b : Token) (rel : BitVec 4)
  | discard (g : Word)
  | clean (g len : Word)
  | inv (g len : Word)
  /-- kind 0 acquire, 1 release, 2 both (R73) -/
  | fence (kind : Nat) (scope : BitVec 3)
  | push (dir : Nat) (t : Token)
  | send (dest cls : Nat) (pay : Vec)
  /-- a request to a tile's home: the step it becomes there -/
  | tile (i : Packet)
  | ltile (l ver : Nat) (q : LTile)
  | larder (q : LReq)
  /-- a matrix, engine or link command or XCAN: its words and operand tokens -/
  | cmd (w0 w1 : Word32) (a b : Token)
  deriving DecidableEq, Repr

/-- A form of major 0x7D that has fired and acts at commit (R273, R388). -/
inductive Form where
  | trap (code : BitVec 16)
  | wfi (us : BitVec 32)
  | align
  | dbgbrk (code : BitVec 16)
  | tlbinv (d : Token)
  | pmig (d : Token)
  deriving DecidableEq, Repr

/-- An entry of a strand's hold partition (R49). -/
structure Held where
  lsid : Nat
  idx : Nat
  eff : Eff
  /-- parts whose check has not answered, and the translations found: byte offset, PA, leaf (R49) -/
  need : Nat
  tr : List (Nat × Nat × Leaf)
  /-- ASID, mode and user protection bounds at firing (R248, R308) -/
  asid : BitVec 16
  user : Bool
  base : Nat
  limit : Nat
  deriving DecidableEq, Repr

/-- A returning operation in progress: size, result bytes so far, what it waits for. -/
structure Outst where
  idx : Nat
  lsid : Nat
  z : Nat
  got : List (Option Byte)
  /-- parts that have not returned -/
  left : Nat
  /-- waits on a parked versioned read: a wait of R52 -/
  parked : Bool
  /-- the version a TLD or TWAIT names, to cancel it at a flush (R239) -/
  ref : Option Ref
  /-- the lowest part of a load that has failed: cause and TVAL (R208) -/
  bad : Option (Nat × Word)
  /-- an acquire that later reads may be performed ahead of; and whether it synchronises with what it reads (R200, R201) -/
  lax : Bool
  sync : Bool
  deriving DecidableEq, Repr

/-- A load that has been performed: what it covers, for the order of loads of one location (R194). -/
structure LoadRec where
  idx : Nat
  lsid : Nat
  g : Word
  loc : Bool
  z : Nat
  deriving DecidableEq, Repr

/-- A load performed before an operation that it is ordered after: body index, and the token it gave once it has
returned. It is performed again before the block commits (R48, R197, R222; log 7, DEDUCED). `on`: it waits only to know whether
the acquires at these body indices synchronise, and stands where none does (R200). -/
structure Early where
  idx : Nat
  val : Option Token
  on : Option (List Nat)
  deriving DecidableEq, Repr

inductive ExitKind where
  | br | bri | halt | yield | hret | tret
  | scall (n : BitVec 18)
  deriving DecidableEq, Repr

/-- The exit that fired, with its target fixed (R110). -/
structure Exit where
  idx : Nat
  kind : ExitKind
  target : Word
  deriving DecidableEq, Repr

/-- The returning atomic of a block (R219): waiting for its probe, then for R53, then issued. -/
structure PendAtomic where
  src : Src
  held : Held
  probed : Bool
  issued : Bool
  deriving DecidableEq, Repr

/-- A block in execution (R34-R56). -/
structure Block where
  addr : Word
  hdr : List Word32
  slots : List Slot
  /-- tokens in the write slots W0-W15 -/
  wr : List (Option Token)
  /-- store-mask LSIDs that count as arrived (R56) -/
  arrived : BitVec 32
  held : List Held
  outst : List Outst
  loads : List LoadRec
  early : List Early
  /-- what loads gave when they were performed again, by body index: the block's next run starts from it (log 7, DEDUCED) -/
  guess : List (Nat × Token)
  /-- body indices whose issue has been counted (R405; log 7, DEDUCED) -/
  counted : List Nat
  /-- a fault that rests on an early load (log 7, DEDUCED) -/
  doubt : Option TrapRec
  atomic : Option PendAtomic
  exit : Option Exit
  irrev : Bool
  /-- the first cause after the irrevocable point, and whether it ends the block like WATCHDOG (R53) -/
  late : Option (TrapRec × Bool)
  watch : Nat
  /-- instructions waiting in the sense of R52, by body index -/
  waits : List Nat
  /-- speculative channel heads: direction and entries popped (R51) -/
  claims : List (Nat × Nat)
  /-- push reservations by direction (R52) -/
  resv : List Nat
  /-- a non-finite lane was found (R98) -/
  nf : Bool
  /-- held SYSWRs: body index, register, SLSEL at firing, data (R103) -/
  sysw : List (Nat × BitVec 12 × BitVec 8 × Token)
  /-- held forms of major 0x7D by body index (R388, R273) -/
  forms : List (Nat × Form)
  /-- Larder reservations: LSID, entry and descriptor (R291) -/
  snews : List (Nat × Nat × Vec)
  /-- inside the block-start cycle: what it detects, reported together at its end (R45, R46) -/
  starting : Option (List TrapRec)
  deriving DecidableEq, Repr

/-- Where a strand stands between and in blocks. -/
inductive Phase where
  /-- no task and no handler -/
  | idle
  /-- between blocks: the next step is a boundary or the fetch of BPC -/
  | boundary
  /-- a message handler has started: its first block is fetched next (R338) -/
  | entering
  /-- a block is in its window -/
  | running
  /-- R385, since the given cycle -/
  | held (since : Nat)
  /-- R391, until the given TIMEBASE value, if any; `us`: the timeout asked for -/
  | wfi (wake : Option Nat) (us : BitVec 32)
  /-- stopped for pre-emption (R395) -/
  | stopped
  deriving DecidableEq, Repr

/-- A strand's context (R95, R97, R335, R381, R384, R319, R302). -/
structure Strand where
  g : Vector Word 32
  v : Vector Vec 16
  bpc : Word
  status : Word
  tcause : Word
  tval : Word
  tblk : Word
  tlsid : Word
  ttime : Word
  nflag : Word
  fpmode : Word
  cycles : Word
  blocks : Word
  resume : Word
  hnd : Bool
  rbpc : Option Word
  live : Bool
  /-- encoding version of the task's launch (R86) -/
  ev : Nat
  /-- launch and placement slot of the task -/
  launch : Option (BitVec 16 × BitVec 32 × Nat)
  phase : Phase
  report : Option TrapRec
  commitTraps : List TrapRec
  /-- pending interrupts: TIMER, PREEMPT and WARN with their TVAL, EXTERNAL by priority (R384) -/
  timer : Option Word
  preempt : Option Word
  warn : Option Word
  ext : AMap Word
  engOut : Nat
  matOut : Nat
  /-- held tile requests not yet acknowledged (R253) -/
  ackTiles : Nat
  /-- module and slice register writes not yet acknowledged (R103) -/
  ackRegs : Nat
  /-- an ended HALT waits for acknowledgements (R253) -/
  halting : Bool
  /-- YIELD stand-out: end cycle, strands that have yet to issue (R111) -/
  yielding : Option (Nat × List Nat)
  /-- ALIGN: the fetch is held until this cycle (R378) -/
  aligned : Option Nat
  epoch : Nat
  block : Option Block
  deriving DecidableEq, Repr

/-- The strand registers of a strand no task has started on. `sup`: a resident-handler strand (R97). -/
def Strand.reset (sup : Bool) : Strand where
  g := .replicate 32 0
  v := .replicate 16 0
  bpc := 0
  status := if sup then 3 else 2
  tcause := 0
  tval := 0
  tblk := 0
  tlsid := 0
  ttime := 0
  nflag := 0
  fpmode := 0
  cycles := 0
  blocks := 0
  resume := 0
  hnd := false
  rbpc := none
  live := false
  ev := 3
  launch := none
  phase := .idle
  report := none
  commitTraps := []
  timer := none
  preempt := none
  warn := none
  ext := []
  engOut := 0
  matOut := 0
  ackTiles := 0
  ackRegs := 0
  halting := false
  yielding := none
  aligned := none
  epoch := 0
  block := none

/-! ## A core -/

/-- A line of the L1 (R181): ASID, virtual line (address / 128) and bytes. -/
structure L1Line where
  asid : BitVec 16
  line : Nat
  d : List Byte
  leaf : Leaf
  deriving DecidableEq, Repr

inductive VState where
  | free | filling | sealed_ | aliased | poisoned | retiring
  deriving DecidableEq, Repr

/-- A local version (R244). -/
structure LVer where
  ver : BitVec 16
  state : VState
  fmt : BitVec 4
  fin : Bool
  pend : Nat
  size : Nat
  alink : Nat
  refs : Nat
  addr : Nat
  wait : BitVec 16
  xref : Nat
  deriving DecidableEq, Repr

def LVer.reset : LVer := ⟨0, .free, 0, false, 0, 0, 0, 0, 0, 0, 0⟩

/-- An entry of the store buffer (R50). `left`: on its way to its home; `parts`: pieces not yet performed. -/
structure SbEnt where
  seq : Nat
  strand : Nat
  src : Src
  blk : Word
  asid : BitVec 16
  user : Bool
  eff : Eff
  ret : Option Src
  left : Bool
  parts : Nat
  tr : List (Nat × Nat × Leaf)
  /-- user protection bounds at firing, and the launch of the task (R308, R253) -/
  base : Nat
  limit : Nat
  launch : Option (BitVec 16 × BitVec 32)
  /-- TIMEBASE[39:0] at the commit (R336) -/
  time : BitVec 40
  deriving DecidableEq, Repr

/-- An inbound channel (R331): entries with the cycle each was written in, reserved entries not yet written, head and
tail, claim. -/
structure Chan where
  ents : List (Nat × Token)
  resv : Nat
  head : BitVec 3
  tail : BitVec 3
  claim : Option Nat
  deriving DecidableEq, Repr

def Chan.reset : Chan := ⟨[], 0, 0, 0, none⟩

/-- A plane of the matrix unit, and PCLS (R297): value (k, j) under 64 k + j as the word that holds it, in [15:0] its code, [23:16] its
scale and [26:24] its format (R396), and in [31:27] the descriptor of a B8 (log 9, DESIGN CHOICE); one not listed is the BF16
+0. -/
structure Plane where
  elems : AMap (BitVec 32)
  cls : BitVec 2
  deriving DecidableEq, Repr

/-- The matrix unit (R297). PCLS code: 0 4-bit, 1 8-bit, 2 16-bit. -/
structure Matrix where
  active : Plane
  shadow : Plane
  acc : AMap (BitVec 32)
  cfg : BitVec 16
  queue : List Cmd
  deriving DecidableEq, Repr

def Matrix.reset : Matrix := ⟨⟨[], 2⟩, ⟨[], 2⟩, [], 0, []⟩

/-- A core (R26, R99). -/
structure Core where
  asid : BitVec 16
  lut4a : Word
  lut4b : Word
  wincfg : Vector Word 7
  wscale : Vector (BitVec 17) 7
  protbase : BitVec 17
  protlimit : BitVec 18
  htab : Word
  hstrands : BitVec 16
  trapvec : Word
  chcfg : BitVec 4
  matcfg : BitVec 32
  priomask : BitVec 8
  slsel : BitVec 8
  strands : AMap Strand
  loft : Mem
  loftPoison : List Nat
  l1 : List L1Line
  lvt : AMap LVer
  sb : List SbEnt
  chans : AMap Chan
  msgs : List Msg
  mat : Matrix
  pctl : Vector Word 8
  pcnt : Vector (BitVec 48) 8
  /-- last strand issued on the arithmetic and on the memory port (R376) -/
  portA : Nat
  portM : Nat
  /-- arrival cycle of a pre-empt (R395) -/
  preemptAt : Option Nat
  /-- a read of an HTAB entry of another device (R338): its address, and once it is answered the entry, none where it failed -/
  htabRead : Option (Word × Option (Option Word))
  deriving DecidableEq, Repr

/-- Core as reset leaves it (R99, R404). -/
def Core.reset : Core where
  asid := 0
  lut4a := 0
  lut4b := 0
  wincfg := .replicate 7 0
  wscale := .replicate 7 0
  protbase := 0
  protlimit := 0x18000
  htab := 0
  hstrands := 0
  trapvec := 0
  chcfg := 0
  matcfg := 0
  priomask := 0
  slsel := 0
  strands := []
  loft := []
  loftPoison := []
  l1 := []
  lvt := []
  sb := []
  chans := []
  msgs := []
  mat := .reset
  pctl := .replicate 8 0xFFFF00
  pcnt := .replicate 8 0
  portA := 15
  portM := 15
  preemptAt := none
  htabRead := none

/-! ## A slice -/

/-- A guard of a guarded version (R238). STATUS: `none` WAITING, `some set` CLEAR or SET. -/
structure Guard where
  ref : Ref
  pver : Option (BitVec 32)
  status : Option Bool
  deriving DecidableEq, Repr

/-- A version entry with its storage (R228). `at_` is where its first granule lies: in the slice's tile ways, or in
the die's tile pool when `hbm`. -/
structure Ver where
  tn : BitVec 32
  ver : BitVec 32
  asid : BitVec 16
  state : VState
  fmt : BitVec 4
  hbm : Bool
  fin : Bool
  subscribed : Bool
  pinned : Bool
  proxy : Bool
  gskip : Bool
  /-- a plain TSEAL has fixed its size: later fills are answered TILE_STATE (R237) -/
  closed : Bool
  /-- a fill has come over a link: its seal has SYSTEM scope (R201) -/
  system : Bool
  pend : Nat
  size : Nat
  refs : Nat
  xref : Nat
  guard : Option Guard
  at_ : Nat
  /-- granules of storage it holds -/
  grans : Nat
  aver : BitVec 32
  waiters : List Waiter
  node : Nat
  sealTime : BitVec 40
  bytes : Mem
  deriving DecidableEq, Repr

/-- A tile entry (R229). LIVE is the number of the tile's version entries. -/
structure TileE where
  asid : BitVec 16
  tn : BitVec 32
  hwm : Nat
  ended : Bool
  waiters : List Waiter
  deriving DecidableEq, Repr

/-- A Cellar slice: WAYMASK (R184), SLERR (R407) and its version table (R227). `maybe`: cache ways that may hold a
line. -/
structure Slice where
  tile : BitVec 16
  flush : BitVec 16
  maybe : BitVec 16
  ce : BitVec 16
  ue : BitVec 16
  vers : List Ver
  tiles : List TileE
  deriving DecidableEq, Repr

def Slice.reset : Slice := ⟨0, 0, 0, 0, 0, [], []⟩

/-! ## The module -/

/-- A TLB entry of the translators (R271): die, ASID, first byte of the page, leaf. -/
structure TlbE where
  die : Nat
  asid : BitVec 16
  va : Nat
  leaf : Leaf
  deriving DecidableEq, Repr

/-- A Larder entry (R278). STATE codes as there. -/
structure LEntry where
  asid : BitVec 16
  state : Nat
  rst : Nat
  prio : Nat
  pin : Bool
  auto : Bool
  eos : Bool
  err : Bool
  finp : Bool
  /-- RSV with the reserving operation -/
  rsv : Option Src
  gen : BitVec 16
  dtok : Nat
  tsh : Nat
  skey : BitVec 32
  tout : BitVec 32
  ctn : BitVec 32
  cver : BitVec 32
  itn : BitVec 32
  inext : BitVec 32
  icon : BitVec 32
  ptok : Nat
  rej : Nat
  pgr : Nat
  last : BitVec 40
  /-- a move (R288): its place in the order of events, and its start in ns once it has started -/
  moving : Option (Nat × Option Nat)
  deriving DecidableEq, Repr

def LEntry.reset : LEntry where
  asid := 0
  state := 0
  rst := 0
  prio := 0
  pin := false
  auto := false
  eos := false
  err := false
  finp := false
  rsv := none
  gen := 0
  dtok := 0
  tsh := 0
  skey := 0
  tout := 0
  ctn := 0
  cver := 0
  itn := 0
  inext := 0
  icon := 0
  ptok := 0
  rej := 0
  pgr := 0
  last := 0
  moving := none

/-- A stream that a build's walk planned: the entry, its snapshot and the grant (R284). -/
structure Plan where
  entry : Nat
  snap : LEntry
  grant : Nat
  deriving DecidableEq, Repr

/-- A step build (R283): ASID, budget, batch tile, the SBLD that asked; and once it runs, its start time, the version it
created, the plans not yet applied, and the batch entries, decode entries and tokens of those that were (R286). -/
structure Build where
  asid : BitVec 16
  budget : Nat
  btn : BitVec 32
  who : Option (Src × Word × Option (BitVec 16 × BitVec 32))
  start : Option Nat
  ver : BitVec 32
  plans : List Plan
  bytes : List Byte
  decodes : Nat
  tokens : Nat
  deriving DecidableEq, Repr

/-- An accepted launch (R359-R361). -/
structure Launch where
  asid : BitVec 16
  ver : BitVec 32
  raw : List Byte
  /-- prerequisites answered readable -/
  preOk : List Nat
  notBefore : Bool
  built : Bool
  /-- when the last of the other conditions of R367 came to hold -/
  since : Nat
  elig : Option Nat
  cls : Nat
  /-- time of the last class change -/
  clsAt : Nat
  saved : Option Nat
  /-- addresses of the entry and of the frame that the lease took (R396) -/
  frameAt : Nat × Nat
  /-- clusters of the lease in placement order, and its expiry -/
  lease : Option (List Nat × Option Nat)
  preempting : Bool
  /-- image of each placement core that has been saved -/
  savedCores : Nat
  /-- tasks that ended, by slot -/
  ended : List Nat
  /-- tasks of the launch that wait for a strand's HRET: core, strand, slot, and the saved strand if there is one (R338) -/
  waiting : List (Nat × Nat × Nat × Option Strand)
  /-- engine, matrix, link and Larder commands not yet complete (R374) -/
  cmds : Nat
  deriving DecidableEq, Repr

inductive PortSt where
  | down | up | degraded
  deriving DecidableEq, Repr

/-- A chip-link port (R342): state, commands, and flits held because the node is not reachable (R345). -/
structure Port where
  st : PortSt
  /-- lanes that have failed -/
  lanes : Nat
  cmds : List Cmd
  deriving DecidableEq, Repr

def Port.reset : Port := ⟨.down, 0, []⟩

/-- The saved context of one placement core (R396): the parts whose byte layout is open (log 9, DESIGN CHOICE). -/
structure Saved where
  asid : BitVec 16
  frame : Nat
  k : Nat
  /-- the core it was saved from -/
  from_ : Nat
  core : Core
  engine : List Cmd
  link : List (Nat × Cmd)
  deriving DecidableEq, Repr

/-- A line the host-attach agent holds (R411): 1 Shared, 2 Exclusive, 3 Modified. -/
structure AgentLine where
  st : Nat
  d : List Byte
  deriving DecidableEq, Repr

/-- What the host sees answered (R411-R418). -/
inductive HostOut where
  | read (d : List Byte)
  | abort
  | msix (v : Nat)
  deriving DecidableEq, Repr

/-- What has happened in a cycle, where the spec orders the happenings of one cycle (log 61, DESIGN CHOICE): instructions
issued by core and port (memory port true, R376), the last strand that committed by core and the cores whose registers a
commit has written (R100), the last kind of write to a Loft (R180), the last source of an access at a home (R186), blocks
fetched by cluster, ASID and address (R31), and strands whose HRET has committed (R339). -/
structure SameCycle where
  cycle : Nat
  issues : List (Nat × Bool)
  commits : AMap Nat
  regs : List Nat
  loft : Nat
  home : Nat
  fetches : List (Nat × BitVec 16 × Word)
  hrets : List (Nat × Nat)
  deriving DecidableEq, Repr

def SameCycle.empty (cycle : Nat) : SameCycle := ⟨cycle, [], [], [], 0, 0, [], []⟩

/-- A spilled message (R337): the save frame and the placement core of the image it belongs to, if it belongs to one, and
the core it is being replayed into. -/
structure Spilled where
  msg : Msg
  image : Option (Nat × Nat)
  into : Option Nat
  deriving DecidableEq, Repr

/-- Thermal and power state (R362, R409, R410). -/
structure Thermal where
  temp : AMap (BitVec 8)
  lvl : AMap Nat
  phit : Bool
  sag : BitVec 16
  tlim : BitVec 8
  en : Bool
  plim : BitVec 12
  /-- thermal class of cluster die × 512 + row × 32 + col -/
  cls : AMap Nat
  rankEn : Bool
  rankLimit : BitVec 3
  deriving DecidableEq, Repr

def Thermal.reset : Thermal := ⟨[], [], false, 0, 95, true, 2600, [], true, 5⟩

/-- The control BAR's own registers (R413). -/
structure Dev where
  ready : Bool
  fail : Bool
  werr : Bool
  stage : Nat
  code : Nat
  go : Bool
  winbase : Word
  winasid : BitVec 16
  extint : Word
  pubCount : BitVec 32
  pubLast : BitVec 8
  mailbox : Mem
  /-- SHA-512 digest and version of the verified image (R417, R418) -/
  digest : BitVec 512
  version : BitVec 32
  deriving DecidableEq, Repr

def Dev.reset : Dev := ⟨false, false, false, 0, 0, false, 0x7F00000000000000, 0, 0, 0, 0, [], 0, 0⟩

/-- Who acts in a turn (log 2, DESIGN CHOICE): the model's own scheduling data. -/
inductive Who where
  /-- the strand's instruction at this body index issues; its results arrive after `lat` cycles -/
  | issue (core strand idx lat : Nat)
  /-- this step happens: one that is due, or one that needs no cause -/
  | event (i : Packet)
  /-- a running command of engine `u` (kind 0), core `u`'s matrix unit (1) or port `u` (2) performs its part `n`, or the step builder applies a grant (3) -/
  | progress (kind u id n : Nat)
  /-- what the default policy picks -/
  | auto
  deriving DecidableEq, Repr

structure Turn where
  cycles : Nat
  ns : Nat
  who : Who
  deriving DecidableEq, Repr

/-- One S4 module. -/
structure State where
  cores : AMap Core
  slices : AMap Slice
  /-- current value of device memory by physical address (R174, R188) -/
  mem : Mem
  /-- lines that a cache way may hold, each with what its writes since its last certain write-back replaced and its poison
  mark, newest first (R183, R187) -/
  undo : AMap (List (Mem × Bool))
  /-- lines with a poison mark (R189) -/
  poison : List Nat
  /-- releases that a read of a byte may synchronise with: core and scope of each, by byte (R200) -/
  rels : AMap (List (Nat × Nat))
  hostMem : Mem
  agent : AMap AgentLine
  tlb : List TlbE
  migs : List Migration
  tlbinvs : List Tlbinv
  larder : AMap LEntry
  ldcfg : BitVec 14
  builds : List Build
  nextl : AMap Nat
  launches : List Launch
  engines : AMap (List Cmd)
  ports : AMap Port
  sysnum : BitVec 7
  routes : AMap Nat
  joints : BitVec 4
  collectors : AMap (List TrapMsg)
  /-- spilled messages by ASID (R337) -/
  spill : AMap (List Spilled)
  /-- launch records fetched for a launch version that is a proxy, by ASID: none where the fetch failed (R242, R363) -/
  records : AMap (Option (List Byte))
  saved : List Saved
  /-- the slowest of the dies' copies of TIMEBASE, and the highest value of it that a strand has read (R400, R401) -/
  timebase : Word
  timeRead : Word
  ptmFails : Nat
  ptmDone : Bool
  /-- what slewing has yet to add to TIMEBASE, and the time since its last ns, in ns (R400) -/
  ptmOffset : Int
  slewTime : Nat
  /-- ns since reset: the model's own clock, for what recurs (R400, R410); the last PTM exchange and, by die, the last update of a
  throttle level on it -/
  clock : Nat
  ptmAt : Nat
  lvlAt : AMap Nat
  thermal : Thermal
  /-- module events of R406 -/
  events : AMap (BitVec 32)
  /-- error counters CE, UE of kinds 2-4 by kind × 2^16 + index (R407) -/
  errs : AMap (BitVec 32)
  /-- WARN thresholds by kind, 64 where not listed (R407) -/
  thresholds : AMap (BitVec 16)
  dev : Dev
  /-- every core is halted: boot failure, joint stop, or boot not yet done (R416) -/
  halted : Bool
  -- the model's own fields (log 2-6)
  agenda : List Turn
  due : List Packet
  cur : Nat × Nat × Nat
  /-- cycles after which the results of the issue in progress arrive -/
  lat : Nat
  /-- what the step in progress carries, when it is no instruction -/
  packet : Packet
  draws : Nat
  nextId : Nat
  cycle : Nat
  sent : List Flit
  /-- flits held until their node is reachable (R345) -/
  heldFlits : List Flit
  /-- what the tags of transfers under way stand for -/
  tags : AMap TagUse
  /-- transfers into a version here that fills: node, tag, version, and whether the last flit has arrived, so that only its
  answer may still be lost (R352, R358) -/
  incoming : List (Nat × Nat × Ref × Bool)
  /-- transfers to here that have failed: node and tag; their later flits are not performed (R352) -/
  failedIn : List (Nat × Nat)
  /-- the model's own record of the cycle (log 61) -/
  order : SameCycle
  out : List HostOut
  deriving DecidableEq, Repr

/-- The machine right after reset (R416): every item at its stated reset value. -/
def State.reset : State where
  cores := []
  slices := []
  mem := []
  undo := []
  poison := []
  rels := []
  hostMem := []
  agent := []
  tlb := []
  migs := []
  tlbinvs := []
  larder := []
  ldcfg := 0
  builds := []
  nextl := []
  launches := []
  engines := []
  ports := []
  sysnum := 0x7E
  routes := []
  joints := 0xF
  collectors := []
  spill := []
  records := []
  saved := []
  timebase := 0
  timeRead := 0
  ptmFails := 0
  ptmDone := false
  ptmOffset := 0
  slewTime := 0
  clock := 0
  ptmAt := 0
  lvlAt := []
  thermal := .reset
  events := []
  errs := []
  thresholds := []
  dev := .reset
  halted := false
  agenda := []
  due := []
  cur := (0, 0, 0)
  lat := 0
  packet := .supplySag 0
  draws := 0
  nextId := 0
  cycle := 0
  sent := []
  heldFlits := []
  tags := []
  incoming := []
  failedIn := []
  order := .empty 0
  out := []

end Sys2Proof.Machine
end

