-- ==== Sys2Proof/Machine/Ops.lean ====
section
/-! DEFINITION. The named operations over the state that every meaning uses: sparse tables, memory in its one
canonical form, the units of the module, counters, firing and token delivery (R43, R44), faults and flushes (R53,
R55), and taking a trap and returning from it (R381, R390). -/

namespace Sys2Proof.Machine

/-! ## Sparse tables and bytes -/

/-- Entry `k` of a sparse table, `d` where it is not listed. -/
def aget {α : Type} (m : AMap α) (k : Nat) (d : α) : α :=
  match m with
  | [] => d
  | (j, v) :: r => if j = k then v else aget r k d

/-- A sparse table with entry `k` set. -/
def aput {α : Type} (m : AMap α) (k : Nat) (v : α) : AMap α :=
  match m with
  | [] => [(k, v)]
  | (j, w) :: r => if k < j then (k, v) :: (j, w) :: r else if j = k then (k, v) :: r else (j, w) :: aput r k v

/-- A sparse table without entry `k`. -/
def adel {α : Type} (m : AMap α) (k : Nat) : AMap α := m.filter (·.1 != k)

/-- The byte at an address: 0 where none is listed (R177, R188). -/
def memRead (m : Mem) (a : Nat) : Byte :=
  match m with
  | [] => 0
  | (x, c) :: r => if x = a then c else memRead r a

/-- Memory with a byte listed. -/
def memSet (m : Mem) (a : Nat) (b : Byte) : Mem :=
  match m with
  | [] => [(a, b)]
  | (x, c) :: r => if a < x then (a, b) :: (x, c) :: r else if a = x then (a, b) :: r else (x, c) :: memSet r a b

/-- Memory with one byte written: a byte that is 0 is not listed. -/
def memPut (m : Mem) (a : Nat) (b : Byte) : Mem := if b = 0 then m.filter fun e => e.1 != a else memSet m a b

/-- Memory with the bytes that are present written from `a` on. -/
def memPutAll (m : Mem) (a : Nat) : List (Option Byte) → Mem
  | [] => m
  | none :: bs => memPutAll m (a + 1) bs
  | some b :: bs => memPutAll (memPut m a b) (a + 1) bs

/-- Bytes `[a, a+n)`. -/
def memBytes (m : Mem) (a n : Nat) : List Byte := (List.range n).map fun j => memRead m (a + j)

/-- Memory without the bytes in `[a, a+n)`: they read 0. -/
def memClear (m : Mem) (a n : Nat) : Mem := m.filter fun c => c.1 < a || a + n ≤ c.1

/-- The canonical form: addresses strictly rising, no entry equal to what an unlisted address reads as. -/
def Memory.wf : Mem → Bool
  | [] => true
  | [(_, c)] => c != 0
  | (x, c) :: (y, d) :: r => c != 0 && x < y && Memory.wf ((y, d) :: r)

/-- A little-endian number of bytes (R8). -/
def leNat : List Byte → Nat
  | [] => 0
  | b :: bs => b.toNat + 256 * leNat bs

/-- The `n` little-endian bytes of a number (R8). -/
def leBytes (x : Nat) : Nat → List Byte
  | 0 => []
  | n + 1 => .ofNat 8 x :: leBytes (x / 256) n

/-- A list with entry `i` changed. -/
def onNth {α : Type} (f : α → α) : List α → Nat → List α
  | [], _ => []
  | x :: xs, 0 => f x :: xs
  | x :: xs, n + 1 => x :: onNth f xs n

/-! ## Units -/

/-- Die, row, column and position of a module core number (R10). -/
def coreDie (c : Nat) : Nat := c / 2048
def coreRow (c : Nat) : Nat := c / 128 % 16
def coreCol (c : Nat) : Nat := c / 4 % 32
def corePos (c : Nat) : Nat := c % 4
/-- The core lies in its die's supervisor cluster (R27). -/
def isSup (c : Nat) : Bool := c / 4 % 512 == 0
/-- Core-row and core-column in the die's grid of cores (R24). -/
def gridRow (c : Nat) : Nat := 2 * coreRow c + corePos c / 2
def gridCol (c : Nat) : Nat := 2 * coreCol c + corePos c % 2
/-- The neighbour core in a direction (0 north, 1 east, 2 south, 3 west), `none` at a die edge (R24, R25). -/
def neighbour (c dir : Nat) : Option Nat :=
  let r := gridRow c
  let k := gridCol c
  let at' (r k : Nat) : Nat := coreDie c * 2048 + r / 2 * 128 + k / 2 * 4 + r % 2 * 2 + k % 2
  match dir with
  | 0 => if r = 0 then none else some (at' (r - 1) k)
  | 1 => if k = 63 then none else some (at' r (k + 1))
  | 2 => if r = 31 then none else some (at' (r + 1) k)
  | 3 => if k = 0 then none else some (at' r (k - 1))
  | _ => none
/-- The opposite direction. -/
def opposite (dir : Nat) : Nat := (dir + 2) % 4

def State.core (s : State) (c : Nat) : Core := aget s.cores c Core.reset
def State.onCore (s : State) (c : Nat) (f : Core → Core) : State := { s with cores := aput s.cores c (f (s.core c)) }
def State.strand (s : State) (c t : Nat) : Strand := aget (s.core c).strands t (Strand.reset (isSup c))
def State.onStrand (s : State) (c t : Nat) (f : Strand → Strand) : State :=
  s.onCore c fun k => { k with strands := aput k.strands t (f (s.strand c t)) }
/-- Change the block in a strand's window, if there is one. -/
def State.onBlock (s : State) (c t : Nat) (f : Block → Block) : State :=
  s.onStrand c t fun d => { d with block := d.block.map f }
def State.slice (s : State) (k : Nat) : Slice := aget s.slices k Slice.reset
def State.onSlice (s : State) (k : Nat) (f : Slice → Slice) : State := { s with slices := aput s.slices k (f (s.slice k)) }
def Core.chan (k : Core) (dir : Nat) : Chan := aget k.chans dir Chan.reset
def State.onChan (s : State) (c dir : Nat) (f : Chan → Chan) : State :=
  s.onCore c fun k => { k with chans := aput k.chans dir (f (k.chan dir)) }
def State.port (s : State) (p : Nat) : Port := aget s.ports p Port.reset
def State.onPort (s : State) (p : Nat) (f : Port → Port) : State := { s with ports := aput s.ports p (f (s.port p)) }
def State.lvt (s : State) (c l : Nat) : LVer := aget (s.core c).lvt l LVer.reset
def State.onLvt (s : State) (c l : Nat) (f : LVer → LVer) : State :=
  s.onCore c fun k => { k with lvt := aput k.lvt l (f (aget k.lvt l LVer.reset)) }
def State.engine (s : State) (e : Nat) : List Cmd := aget s.engines e []
def State.lentry (s : State) (e : Nat) : LEntry := aget s.larder e LEntry.reset
def State.onLentry (s : State) (e : Nat) (f : LEntry → LEntry) : State :=
  { s with larder := aput s.larder e (f (s.lentry e)) }

/-- A step that will happen: its packet is under way (R22). -/
def State.emit (s : State) (i : Packet) : State := { s with due := s.due ++ [i] }
/-- A fresh number for a store-buffer entry, command or transfer. -/
def State.fresh (s : State) : State := { s with nextId := s.nextId + 1 }
/-- A free bit, and the state that has drawn it (log 3, DESIGN CHOICE). -/
def State.drawBit (s : State) : Bool × State := (Config.freeBit s.draws, { s with draws := s.draws + 1 })
/-- A free number below `n` (log 3, DESIGN CHOICE). -/
def State.drawBelow (s : State) (n : Nat) : Nat × State :=
  (Config.freeNat s.draws % n, { s with draws := s.draws + 1 })
/-- Count module event `e` (R406). -/
def State.count (s : State) (e : Nat) : State := { s with events := aput s.events e (aget s.events e 0 + 1) }
/-- TIMEBASE[39:0] (R402). -/
def State.stamp (s : State) : BitVec 40 := s.timebase.truncate 40

/-- What has happened in this cycle (log 61, DESIGN CHOICE). -/
def State.thisCycle (s : State) : SameCycle := if s.order.cycle == s.cycle then s.order else .empty s.cycle
/-- Record what happens in this cycle. -/
def State.note (s : State) (f : SameCycle → SameCycle) : State := { s with order := f s.thisCycle }

/-- Performance event `e` of core `c`, for strand `t` where it is a strand event (R404, R405). -/
def State.perf (s : State) (c e : Nat) (t : Option Nat) : State :=
  s.onCore c fun k =>
    let hit (j : Nat) : Bool :=
      let p := k.pctl.getD j 0
      bits p 0 8 == e && e != 0 && (match t with | some t => p.getLsbD (8 + t) | none => true)
    { k with
      pcnt := Vector.ofFn fun j : Fin 8 => if hit j then k.pcnt.getD j 0 + 1 else k.pcnt.getD j 0
      pctl := Vector.ofFn fun j : Fin 8 =>
        if hit j && k.pcnt.getD j 0 == BitVec.allOnes 48 then k.pctl.getD j 0 ||| 0x1000000 else k.pctl.getD j 0 }

/-! ## Traps -/

/-- Trap entry (R381), at a block boundary of the strand. -/
def trapEntry (s : State) (c t : Nat) (r : TrapRec) : State :=
  s.onStrand c t fun d => { d with
    tcause := r.cause.zeroExtend 64 ||| (r.sub.zeroExtend 64 <<< 8)
    tval := r.tval
    tblk := r.tblk
    tlsid := r.tlsid.zeroExtend 64
    ttime := s.stamp.zeroExtend 64
    status := statusTrap d.status
    resume := r.resume
    bpc := (s.core c).trapvec
    phase := .boundary }

/-- Return from a trap, at the commit of TRET (R390). -/
def trapReturn (s : State) (c t : Nat) : State :=
  s.onStrand c t fun d => { d with status := statusRet d.status, bpc := d.resume }

/-- The trap message of a strand: `kind` 1 page fault or 2 forwarded (R385, R386, R389). -/
def trapMsg (s : State) (c t kind : Nat) (code : BitVec 16) : TrapMsg :=
  let d := s.strand c t
  { kind := kind, cause := d.tcause.truncate 8, asid := (s.core c).asid, row := coreRow c, die := coreDie c
    code := code, tval := d.tval, cores := .ofNat 128 (2^(4 * coreCol c + corePos c)), tblk := d.tblk
    ttime := d.ttime.truncate 40, count := 1, time := s.stamp }

/-- A user PAGE_FAULT holds the strand and tells the supervisor (R385). -/
def holdStrand (s : State) (c t : Nat) (r : TrapRec) : State :=
  let s := s.onStrand c t fun d => { d with
    tcause := r.cause.zeroExtend 64
    tval := r.tval
    tblk := r.tblk
    tlsid := r.tlsid.zeroExtend 64
    ttime := s.stamp.zeroExtend 64
    resume := r.tblk
    phase := .held s.cycle }
  s.emit (.trapMessageAtCollector (trapMsg s c t 1 0))

/-- The place of a saved strand that waits for the end of the handler on its strand (R338, R372). -/
def waitsAt (c t : Nat) (w : Nat × Nat × Nat × Option Strand) : Bool := w.1 == c && w.2.1 == t && w.2.2.2.isSome

/-- The saved strand of a launch that waits for core `c`'s strand `t`. -/
def waitingImage (s : State) (c t : Nat) (launch : Option (BitVec 16 × BitVec 32)) : Option Strand :=
  launch.bind fun l =>
    ((s.launches.filter fun x => x.asid == l.1 && x.ver == l.2).flatMap (·.waiting)).findSome? fun w =>
      if waitsAt c t w then w.2.2.2 else none

/-- Who has issued a command of a launch from strand `t`: the strand, or its saved context while that waits (R338, R372). -/
def issuerOf (s : State) (c t : Nat) (launch : Option (BitVec 16 × BitVec 32)) : Strand :=
  (waitingImage s c t launch).getD (s.strand c t)
def onIssuer (s : State) (c t : Nat) (launch : Option (BitVec 16 × BitVec 32)) (f : Strand → Strand) : State :=
  if (waitingImage s c t launch).isNone then s.onStrand c t f
  else { s with launches := s.launches.map fun x =>
    if launch == some (x.asid, x.ver) then
      { x with waiting := x.waiting.map fun w => if waitsAt c t w then (w.1, w.2.1, w.2.2.1, w.2.2.2.map f) else w }
    else x }

/-- A deferred report reaches its strand: one pending at a time (R253), and none for a task that has ended. -/
def report (s : State) (c t : Nat) (launch : Option (BitVec 16 × BitVec 32)) (r : TrapRec) : State :=
  let d := issuerOf s c t launch
  let same := match launch with
    | none => true
    | some l => match d.launch with | some (a, v, _) => d.live && l == (a, v) | none => false
  if d.report.isSome || !same then s.count 0 else onIssuer s c t launch fun d => { d with report := some r }

/-- The record of a deferred report: TBLK is the committing block with bit 0 set (R253). -/
def reportRec (cause : Nat) (tval blk : Word) (lsid : Nat) : TrapRec :=
  { cause := .ofNat 8 cause, sub := 0, tval := tval, tblk := blk ||| 1, tlsid := .ofNat 6 (lsid % 32 + 32), resume := 0 }

/-- The next trap a strand takes at a boundary, and the strand without it (R383, R384, R457): commit traps kept
pending, a deferred report, an interrupt; all of them only with IE = 1. -/
def nextTrap (mask : BitVec 8) (d : Strand) : Option (TrapRec × Strand) :=
  if !statusIE d.status then none else
  let intr (sub : Nat) (tval : Word) : TrapRec :=
    { cause := 0x16, sub := .ofNat 8 sub, tval := tval, tblk := d.bpc, tlsid := 0, resume := d.bpc }
  match d.commitTraps with
  | r :: rs => some (r, { d with commitTraps := rs })
  | [] =>
  match d.report with
  | some r => some ({ r with resume := d.bpc }, { d with report := none })
  | none =>
  match d.timer with
  | some x => some (intr 1 x, { d with timer := none })
  | none =>
  match (d.ext.filter fun e => !mask.getLsbD e.1).getLast? with
  | some (p, x) => some (intr 3 x, { d with ext := adel d.ext p })
  | none =>
  match d.warn with
  | some x => some (intr 4 x, { d with warn := none })
  | none => none

/-- At a boundary the strand takes at most one trap (R383). -/
def takeTrap (s : State) (c t : Nat) : State :=
  match nextTrap (s.core c).priomask (s.strand c t) with
  | some (r, d) => trapEntry (s.onStrand c t fun _ => d) c t r
  | none => s

/-- A trap the commit itself raises: the first is taken at this boundary, later ones stay pending (R383, R457). -/
def takeCommitTraps (s : State) (c t : Nat) : List TrapRec → State
  | [] => s
  | r :: rs => trapEntry (s.onStrand c t fun d => { d with commitTraps := d.commitTraps ++ rs }) c t r

/-! ## Flush and faults -/

/-- Release of a block's channel claims and push reservations at a flush (R51, R52). -/
def releaseChans (s : State) (c : Nat) (b : Block) : State :=
  let s := b.claims.foldl (fun s e => s.onChan c e.1 fun h => { h with claim := none }) s
  b.resv.foldl (fun s dir => match neighbour c dir with
    | some n => s.onChan n (opposite dir) fun h => { h with resv := h.resv - 1 }
    | none => s) s

/-- A block's Larder reservations are cancelled (R291). -/
def cancelSnews (s : State) (b : Block) : State :=
  b.snews.foldl (fun s e => s.onLentry e.2.1 fun l => { l with rsv := none }) s

/-- What a block has outstanding is dropped: parked reads are cancelled (R239), local waits cleared (R245), Larder
reservations cancelled (R291). -/
def dropOps (s : State) (c t : Nat) (b : Block) : State :=
  let epoch := (s.strand c t).epoch
  let s := b.outst.foldl (fun s o => match o.ref with
    | some r => s.emit (.waiterCancel r ⟨c, t, epoch, o.idx, o.lsid⟩)
    | none => s) s
  let s := s.onCore c fun k => { k with
    lvt := k.lvt.map fun (l, e) => (l, { e with wait := e.wait &&& ~~~(BitVec.ofNat 16 (2^t)) }) }
  cancelSnews s b

/-- A block goes: the window, hold partition, claims, reservations and outstanding operations. The strand is at a boundary. -/
def flushQuiet (s : State) (c t : Nat) : State :=
  match (s.strand c t).block with
  | none => s
  | some b =>
    (dropOps (releaseChans s c b) c t b).onStrand c t fun d => { d with block := none, phase := .boundary, epoch := d.epoch + 1 }

/-- A flush (R55), which is counted (R405). -/
def flush (s : State) (c t : Nat) : State :=
  if (s.strand c t).block.isSome then (flushQuiet s c t).perf c 5 (some t) else s

/-- The record of a precise fault of a block: TLSID from the faulting operation, if it has one (R15, R382). -/
def faultRec (b : Block) (cause : Nat) (tval : Word) (lsid : Option Nat) : TrapRec :=
  { cause := .ofNat 8 cause, sub := 0, tval := tval, tblk := b.addr
    tlsid := match lsid with | some l => .ofNat 6 (l % 32 + 32) | none => 0
    resume := b.addr }

/-- A pre-empt acts on the strand at this boundary: not inside a handler (R384, R395). -/
def preempted (d : Strand) : Bool := d.preempt.isSome && statusIE d.status

/-- The strand stops for pre-emption at a boundary, with the record of INTERRUPT, SUB 2 (R380, R382, R395). -/
def stopStrand (s : State) (c t : Nat) : State :=
  s.onStrand c t fun d => { d with
    tcause := 0x216
    tval := d.preempt.getD 0
    tblk := d.bpc
    tlsid := 0
    ttime := s.stamp.zeroExtend 64
    resume := d.bpc
    preempt := none
    yielding := none
    aligned := none
    phase := .stopped }

/-- A precise fault (R15): flush, then trap entry; a user PAGE_FAULT holds the strand instead (R385). A block that a
pre-empt is waiting for starts again after the restore, and faults again then (R395). -/
def preciseFault (s : State) (c t : Nat) (r : TrapRec) : State :=
  let user := !statusMode (s.strand c t).status
  let s := flush s c t
  if preempted (s.strand c t) then stopStrand s c t
  else if r.cause == 0x07 && user then holdStrand s c t r else trapEntry s c t r

/-- A cause raised after the irrevocable point (R53): a second arrival or exit is discarded and its cause kept, the
first standing; every other fault ends the block like WATCHDOG, and is then the cause that is recorded, also where a second
arrival or exit came first (log 72, DESIGN CHOICE). -/
def lateFault (s : State) (c t : Nat) (r : TrapRec) : State :=
  let arrival := r.cause.toNat == 3 || r.cause.toNat == 4 || r.cause.toNat == 5
  let r := { r with sub := 0x80, tval := if arrival || r.cause == 6 then r.tval ||| (1 <<< 63) else r.tval }
  s.onBlock c t fun b => { b with late := match b.late with
    | none => some (r, !arrival)
    | some (o, ending) => if !ending && !arrival then some (r, true) else some (o, ending) }

/-- A fault of a block in which loads were performed early: it is kept, the first of them, until they have been performed
again (R46, R48; log 7, DEDUCED). The operation that faults is over. -/
def doubtFault (s : State) (c t : Nat) (r : TrapRec) (lsid : Option Nat) : State :=
  s.onBlock c t fun b => { b with
    doubt := match b.doubt with | some o => some o | none => some r
    outst := b.outst.filter fun o => some o.lsid != lsid }

/-- A fault of strand `t`'s block: collected in the block-start cycle (R46), late after the irrevocable point, kept while
an early load is in doubt, precise otherwise. -/
def raise (s : State) (c t cause : Nat) (tval : Word) (lsid : Option Nat) : State :=
  match (s.strand c t).block with
  | none => s
  | some b =>
    let r := faultRec b cause tval lsid
    match b.starting with
    | some ds => s.onBlock c t fun b => { b with starting := some (ds ++ [r]) }
    | none =>
      if b.irrev then lateFault s c t r
      else if b.early.isEmpty then preciseFault s c t r
      else doubtFault s c t r lsid

/-- The detection reported among those of one cycle: lowest TVAL, then lowest cause (R46). -/
def firstDetection : List TrapRec → Option TrapRec
  | [] => none
  | r :: rs => match firstDetection rs with
    | none => some r
    | some o => if r.tval.toNat < o.tval.toNat || (r.tval == o.tval && r.cause.toNat ≤ o.cause.toNat) then some r else some o

/-! ## Tokens arriving -/

/-- A token put into the slot a target names, `none` if that slot is full (R43, R44, R63). It arrives in cycle `at_`. -/
def fillTarget (b : Block) (tg : BitVec 8) (t : Token) (at_ : Nat) : Option Block :=
  let n := tg.toNat % 64
  match tg.toNat / 64 with
  | 0 => if tg == 0 then some b else
      match b.wr[n - 32]? with
      | some none => some { b with wr := b.wr.set (n - 32) (some t) }
      | _ => none
  | 1 => match b.slots[n]? with
      | some sl => if sl.a.isSome then none else some { b with slots := b.slots.set n { sl with a := some t, from_ := max sl.from_ at_ } }
      | none => none
  | 2 => match b.slots[n]? with
      | some sl => if sl.b.isSome then none else some { b with slots := b.slots.set n { sl with b := some t, from_ := max sl.from_ at_ } }
      | none => none
  | _ => match b.slots[n]? with
      | some sl => if sl.p.isSome then none else some { b with slots := b.slots.set n { sl with p := some t, from_ := max sl.from_ at_ } }
      | none => none

/-- The cause of a second arrival at a target: MULTI_WRITE at a write slot, OPERAND_COLLISION elsewhere (R44, R54). -/
def collisionCause (tg : BitVec 8) : Nat := if tg.toNat / 64 = 0 then 4 else 5

/-- A token sent to the targets in one cycle: full slots are detected together, the lowest TVAL reported (R46). -/
def deliver (s : State) (c t : Nat) (tk : Token) (targets : List (BitVec 8)) : State :=
  let put (s : State) (tg : BitVec 8) : State :=
    match (s.strand c t).block with
    | none => s
    | some b => match fillTarget b tg tk (s.cycle + s.lat) with
      | some b' => s.onBlock c t fun _ => b'
      | none => s
  let full (b : Block) (tg : BitVec 8) : Bool := (fillTarget b tg tk (s.cycle + s.lat)).isNone
  match (s.strand c t).block with
  | none => s
  | some b =>
    match targets with
    | [t1, t0] =>
      -- a target named twice collides with itself
      let f1 := full b t1
      let f0 := full b t0 || (t1 == t0 && t0 != 0)
      let s := if f1 then s else put s t1
      let s := if f0 then s else put s t0
      if f1 && f0 then raise s c t (collisionCause (if t1.toNat ≤ t0.toNat then t1 else t0))
          (.ofNat 64 (min t1.toNat t0.toNat)) none
      else if f1 then raise s c t (collisionCause t1) (t1.zeroExtend 64) none
      else if f0 then raise s c t (collisionCause t0) (t0.zeroExtend 64) none
      else s
    | [t0] => if full b t0 then raise s c t (collisionCause t0) (t0.zeroExtend 64) none else put s t0
    | _ => s

/-! ## Firing -/

/-- A target's operand slots of the instruction that is firing. -/
structure Fired where
  a : Token
  b : Token
  p : Token
  deriving DecidableEq, Repr

def noTok : Token := ⟨0, 0⟩

/-- The operands of slot `i` when its instruction is ready (R43): it has not fired, the slots it uses are full, and a
scalar predicate matches (R41). `c3`: the predicate slot is operand C (R82); `sel`: it is SEL's selector (R117). -/
def readyOps (b : Block) (i : Nat) (na nb c3 sel : Bool) (pr : BitVec 2) : Option Fired :=
  match b.slots[i]? with
  | none => none
  | some sl =>
    if sl.fired then none
    else if na && sl.a.isNone then none
    else if nb && sl.b.isNone then none
    else
      let f : Fired := ⟨sl.a.getD noTok, sl.b.getD noTok, sl.p.getD noTok⟩
      if c3 || sel || pr == 1 then (if sl.p.isSome then some f else none)
      else if pr == 0 then some f
      else match sl.p with
        | some p => if predMatches pr p then some f else none
        | none => none

/-- The block of the firing in progress. -/
def State.curBlock (s : State) : Option Block := (s.strand s.cur.1 s.cur.2.1).block

/-- Fire the instruction in progress when it is ready; a firing that is not ready changes nothing. -/
def fireWith (s : State) (na nb c3 sel : Bool) (pr : BitVec 2) (k : Fired → State → State) : State :=
  match s.curBlock with
  | none => s
  | some b =>
    match readyOps b s.cur.2.2 na nb c3 sel pr with
    | none => s
    | some f => k f (s.onBlock s.cur.1 s.cur.2.1 fun b =>
        { b with slots := onNth (fun sl => { sl with fired := true }) b.slots s.cur.2.2 })

def fireA := fun (s : State) (pr : BitVec 2) (k : Fired → State → State) => fireWith s true false false false pr k
def fireAB := fun (s : State) (pr : BitVec 2) (k : Fired → State → State) => fireWith s true true false false pr k
def fire0 := fun (s : State) (pr : BitVec 2) (k : Fired → State → State) => fireWith s false false false false pr k

/-- Results of the firing in progress to T1 and T0, or to T0 alone (R43). -/
def send2 (s : State) (t1 t0 : BitVec 8) (tk : Token) : State := deliver s s.cur.1 s.cur.2.1 tk [t1, t0]
def send1 (s : State) (t0 : BitVec 8) (tk : Token) : State := deliver s s.cur.1 s.cur.2.1 tk [t0]

/-- A fault of the firing in progress. -/
def faultHere (s : State) (cause : Nat) (tval : Word) (lsid : Option Nat) : State :=
  raise s s.cur.1 s.cur.2.1 cause tval lsid

/-- The issuer of the firing in progress. -/
def State.src (s : State) (lsid : BitVec 5) : Src :=
  ⟨s.cur.1, s.cur.2.1, (s.strand s.cur.1 s.cur.2.1).epoch, s.cur.2.2, lsid.toNat⟩

/-- The block is in a strand's window, at the epoch the operation was issued in. -/
def State.current (s : State) (src : Src) : Bool :=
  (s.strand src.core src.strand).epoch == src.epoch && (s.strand src.core src.strand).block.isSome

/-- A held effect counts as arrived (R56). -/
def arrive (s : State) (c t lsid : Nat) : State :=
  s.onBlock c t fun b => { b with arrived := b.arrived ||| .ofNat 32 (2^(lsid % 32)) }

/-- Hold partition with one more effect, by LSID (R49). -/
def insertHeld (h : Held) : List Held → List Held
  | [] => [h]
  | x :: xs => if h.lsid < x.lsid then h :: x :: xs else x :: insertHeld h xs

/-- The entry of an effect of core `c`'s strand `t` with `need` parts to check: ASID, mode and bounds as they are at the
firing (R248, R308). -/
def State.entry (s : State) (c t lsid idx : Nat) (e : Eff) (need : Nat) (tr : List (Nat × Nat × Leaf)) : Held :=
  let k := s.core c
  { lsid := lsid, idx := idx, eff := e, need := need, tr := tr, asid := k.asid, user := !statusMode (s.strand c t).status
    base := k.protbase.toNat, limit := k.protlimit.toNat }

/-- Put an effect into the hold partition of a strand's block. -/
def State.hold (s : State) (c t : Nat) (h : Held) : State := s.onBlock c t fun b => { b with held := insertHeld h b.held }

/-- A held effect of the firing in progress passes its checks, waits in the hold partition and has arrived (R49). -/
def holdHere (s : State) (lsid : BitVec 5) (e : Eff) : State :=
  let c := s.cur.1
  let t := s.cur.2.1
  arrive (s.hold c t (s.entry c t lsid.toNat s.cur.2.2 e 0 [])) c t lsid.toNat

/-- A wholly null held effect counts as arrived (R40, R207). -/
def arriveHere (s : State) (lsid : BitVec 5) : State := arrive s s.cur.1 s.cur.2.1 lsid.toNat

/-- A returning operation that has begun: `z` result bytes, in `parts` parts. -/
def newOutst (idx lsid z parts : Nat) (got : List (Option Byte)) (ref : Option Ref) : Outst :=
  { idx := idx, lsid := lsid, z := z, got := got, left := parts, parked := false, ref := ref, bad := none, lax := false, sync := true }

/-- A returning operation of the firing in progress is outstanding (R56). -/
def outstHere (s : State) (lsid z : Nat) (ref : Option Ref) : State :=
  s.onBlock s.cur.1 s.cur.2.1 fun b =>
    { b with outst := b.outst ++ [newOutst s.cur.2.2 lsid z 1 (List.replicate z none) ref] }

/-- User mode of the firing strand. -/
def State.user (s : State) : Bool := !statusMode (s.strand s.cur.1 s.cur.2.1).status

/-- Mark or clear a wait of R52 of a body index. -/
def setWait (s : State) (c t idx : Nat) (w : Bool) : State :=
  s.onBlock c t fun b =>
    let rest := b.waits.filter (· != idx)
    { b with waits := if w then rest ++ [idx] else rest }

/-- The step of the opcode table that a packet belongs to. -/
def stepOf : Packet → Instr
  | .blockFetch _ _ => .blockFetch
  | .resultReturn _ _ _ => .resultReturn
  | .blockCommit _ _ => .blockCommit
  | .watchdogExpiry _ _ => .watchdogExpiry
  | .storeBufferDrain _ _ => .storeBufferDrain
  | .homeAccess _ _ _ => .homeAccess
  | .l1Fill _ _ _ _ _ => .l1Fill
  | .waymaskWrite _ _ _ _ => .waymaskWrite
  | .wayDrain _ _ => .wayDrain
  | .tblkWrite _ _ _ => .tblkWrite
  | .tileAck _ _ => .tileAck
  | .tnewAtHome _ _ => .tnewAtHome
  | .tldAtHome _ _ _ => .tldAtHome
  | .tstAtHome _ _ _ => .tstAtHome
  | .tsealAtHome _ _ _ _ => .tsealAtHome
  | .twaitAtHome _ => .twaitAtHome
  | .tqryAtHome _ _ => .tqryAtHome
  | .tholdAtHome _ => .tholdAtHome
  | .decrementAtHome _ => .decrementAtHome
  | .tforkAtHome _ _ _ _ _ => .tforkAtHome
  | .tforkCopyEnd _ _ _ => .tforkCopyEnd
  | .taliasAtHome _ _ _ => .taliasAtHome
  | .tguardAtHome _ _ => .tguardAtHome
  | .guardResult _ _ => .guardResult
  | .tsubAtHome _ _ _ => .tsubAtHome
  | .tpinAtHome _ _ => .tpinAtHome
  | .tmoveAtHome _ _ => .tmoveAtHome
  | .waiterCancel _ _ => .waiterCancel
  | .readRetry _ _ _ _ => .readRetry
  | .watchRetry _ _ _ _ => .watchRetry
  | .pageWalk _ => .pageWalk
  | .heldTimeout _ _ => .heldTimeout
  | .trapMessageAtCollector _ => .trapMessageAtCollector
  | .tlbinvAtDie _ _ => .tlbinvAtDie
  | .tlbinvAck _ _ => .tlbinvAck
  | .pmigAtTranslator _ => .pmigAtTranslator
  | .migrationLineMove _ => .migrationLineMove
  | .engineCommandArrival _ _ => .engineCommandArrival
  | .engineCommandStart _ => .engineCommandStart
  | .engineSourceAnswer _ _ _ => .engineSourceAnswer
  | .engineCommandComplete _ _ => .engineCommandComplete
  | .engineCommandFail _ _ _ _ => .engineCommandFail
  | .xcanAtEngine _ _ _ _ => .xcanAtEngine
  | .matrixCommandStart _ _ => .matrixCommandStart
  | .mldsFetchComplete _ _ => .mldsFetchComplete
  | .matrixCommandComplete _ _ => .matrixCommandComplete
  | .matrixCommandFail _ _ _ _ => .matrixCommandFail
  | .linkCommandStart _ => .linkCommandStart
  | .linkCommandComplete _ _ => .linkCommandComplete
  | .linkCommandFail _ _ _ _ => .linkCommandFail
  | .writeFlit _ _ _ _ _ _ => .writeFlit
  | .readFlit _ _ _ _ => .readFlit
  | .rdataFlit _ _ _ _ => .rdataFlit
  | .accessFlit _ _ _ => .accessFlit
  | .ackFlit _ _ _ => .ackFlit
  | .failFlit _ _ _ _ => .failFlit
  | .noticeFlit _ _ _ _ _ _ => .noticeFlit
  | .decFlit _ _ => .decFlit
  | .creditFlit _ _ => .creditFlit
  | .unlistedTypeFlit _ _ => .unlistedTypeFlit
  | .flitCrcReplay _ => .flitCrcReplay
  | .fold _ _ _ _ => .fold
  | .portTrained _ => .portTrained
  | .laneFailure _ _ => .laneFailure
  | .portDown _ => .portDown
  | .ucieReplay _ => .ucieReplay
  | .ucieRetrainFailure _ => .ucieRetrainFailure
  | .autoInputSeal _ _ _ _ _ => .autoInputSeal
  | .silenceTimeout _ => .silenceTimeout
  | .evictionComplete _ => .evictionComplete
  | .restoreComplete _ => .restoreComplete
  | .restoreTimeout _ => .restoreTimeout
  | .stepBuild => .stepBuild
  | .batchSeal => .batchSeal
  | .launchAccept _ => .launchAccept
  | .prerequisiteAnswer _ _ _ _ _ => .prerequisiteAnswer
  | .notbeforeReached _ _ => .notbeforeReached
  | .classAging _ _ => .classAging
  | .placementPass => .placementPass
  | .leaseExpiry _ _ => .leaseExpiry
  | .preemptArrival _ => .preemptArrival
  | .preemptGraceExpiry _ => .preemptGraceExpiry
  | .contextSave _ => .contextSave
  | .retirement _ _ => .retirement
  | .messageArrival _ => .messageArrival
  | .messageRetry _ _ _ => .messageRetry
  | .handlerStart _ => .handlerStart
  | .wfiTimeout _ _ => .wfiTimeout
  | .yieldStandoutEnd _ _ => .yieldStandoutEnd
  | .alignRelease _ _ => .alignRelease
  | .ptmExchange _ => .ptmExchange
  | .sensorRefresh _ _ => .sensorRefresh
  | .throttleUpdate _ _ => .throttleUpdate
  | .supplySag _ => .supplySag
  | .fundamentalReset _ _ _ _ _ => .fundamentalReset
  | .devctlReset _ _ _ _ _ => .devctlReset
  | .devctlGo _ _ => .devctlGo
  | .extintWrite _ => .extintWrite
  | .publication _ => .publication
  | .windowRead _ _ => .windowRead
  | .windowWrite _ _ => .windowWrite
  | .cxlMemAccess _ => .cxlMemAccess
  | .hostSnoop _ => .hostSnoop
  | .attestationRequest => .attestationRequest
  | .hostRegisterWrite _ _ => .hostRegisterWrite
  | .uncorrectableError _ => .uncorrectableError
  | .moduleRegisterWrite _ _ _ _ => .moduleRegisterWrite
  | .larderRequest _ _ _ _ _ _ _ => .larderRequest
  | .linkSourceAnswer _ _ _ => .linkSourceAnswer
  | .asidTeardown _ => .asidTeardown

end Sys2Proof.Machine
end

