-- ==== Sys2Proof/Machine/Alu.lean ====
section
/-! DEFINITION. Integer operations, tests, immediates, constants and lane operations (chapter 05, R106-R108,
R113-R128). Operations are on lane values as numbers below 2^w. -/

namespace Sys2Proof.Machine

/-- The outcome of a meaning. -/
abbrev Out := Host.Outcome State Fault Refusal

/-! ## Lane results (R118-R121) -/

/-- A binary lane result; a null operand lane gives a null lane (R40). -/
def zipLanes (f : Nat → Nat → Nat) (a b : List (Option Nat)) : List (Option Nat) :=
  List.zipWith (fun x y => match x, y with | some x, some y => some (f x y) | _, _ => none) a b

def mapLanes (f : Nat → Nat) (a : List (Option Nat)) : List (Option Nat) := a.map fun x => x.map f

/-- log2 of a lane width: the bits of a shift amount (R118). -/
def shAmt (w b : Nat) : Nat := b % w

/-- trunc(a / b), toward zero (R119). -/
def truncDiv (a b : Int) : Int := a.tdiv b

def laneAdd (w a b : Nat) : Nat := (a + b) % 2^w
def laneSub (w a b : Nat) : Nat := (a + (2^w - b)) % 2^w
def laneMul (w a b : Nat) : Nat := a * b % 2^w
def laneMulh (w a b : Nat) : Nat := wrapN (sextI a w * sextI b w / 2^w) w
def laneMulhu (w a b : Nat) : Nat := a * b / 2^w
def laneMulhsu (w a b : Nat) : Nat := wrapN (sextI a w * b / 2^w) w
/-- Division rounds toward zero; by 0 gives all ones, and the overflow case gives the dividend (R119). -/
def laneDiv (w a b : Nat) : Nat := if b = 0 then 2^w - 1 else wrapN (truncDiv (sextI a w) (sextI b w)) w
def laneDivu (w a b : Nat) : Nat := if b = 0 then 2^w - 1 else a / b
def laneRem (w a b : Nat) : Nat :=
  if b = 0 then a else wrapN (sextI a w - sextI b w * truncDiv (sextI a w) (sextI b w)) w
def laneRemu (_w a b : Nat) : Nat := if b = 0 then a else a % b
def laneAnd (_w a b : Nat) : Nat := a &&& b
def laneOr (_w a b : Nat) : Nat := a ||| b
def laneXor (_w a b : Nat) : Nat := a ^^^ b
def laneAndn (w a b : Nat) : Nat := a &&& (2^w - 1 - b)
def laneOrn (w a b : Nat) : Nat := a ||| (2^w - 1 - b)
def laneShl (w a b : Nat) : Nat := a * 2^(shAmt w b) % 2^w
def laneShr (w a b : Nat) : Nat := a / 2^(shAmt w b)
def laneSra (w a b : Nat) : Nat := wrapN (sextI a w / 2^(shAmt w b)) w
def laneRol (w a b : Nat) : Nat := (a * 2^(shAmt w b) + a / 2^(w - shAmt w b)) % 2^w
def laneClz (w a : Nat) : Nat := if a = 0 then w else w - 1 - Nat.log2 a
/-- Trailing zeros of a number below 2^w, by bit. -/
def laneCtz (w a : Nat) : Nat := ((List.range w).find? fun j => a.testBit j).getD w
def lanePopc (w a : Nat) : Nat := ((List.range w).filter fun j => a.testBit j).length
def laneBrev (w a : Nat) : Nat := packLanes 1 ((List.range w).map fun j => some (if a.testBit (w - 1 - j) then 1 else 0))
def laneAbs (w a : Nat) : Nat := wrapN (sextI a w).natAbs w
def laneMin (w a b : Nat) : Nat := if sextI a w ≤ sextI b w then a else b
def laneMax (w a b : Nat) : Nat := if sextI a w ≤ sextI b w then b else a
def laneMinu (_w a b : Nat) : Nat := min a b
def laneMaxu (_w a b : Nat) : Nat := max a b
def satS (w : Nat) (x : Int) : Nat := wrapN (satI x (-(2^(w-1))) (2^(w-1) - 1)) w
def satU (w : Nat) (x : Int) : Nat := wrapN (satI x 0 (2^w - 1)) w
def laneAdds (w a b : Nat) : Nat := satS w (sextI a w + sextI b w)
def laneSubs (w a b : Nat) : Nat := satS w (sextI a w - sextI b w)
def laneAddsu (w a b : Nat) : Nat := satU w (a + b)
def laneSubsu (w a b : Nat) : Nat := satU w ((a : Int) - b)
def laneSext (n w a : Nat) : Nat := wrapN (sextI a n) w
def laneZext (n _w a : Nat) : Nat := a % 2^n

/-- sext(IMM12, 12) mod 2^w (R121). -/
def immLane (imm : BitVec 12) (w : Nat) : Nat := wrapN imm.toInt w

/-! ## Firing forms -/

/-- A two-operand integer form (R118). -/
def intBin (f : Nat → Nat → Nat → Nat) (pr : BitVec 2) (sh : BitVec 3) (t1 t0 : BitVec 8) (s : State) : State :=
  fireAB s pr fun o s =>
    send2 s t1 t0 (mkTok sh (gateLanes pr o.p (zipLanes (f (laneW sh)) (lanesOf sh o.a) (lanesOf sh o.b))))

/-- A one-operand D form (R118). -/
def intUn (f : Nat → Nat → Nat) (pr : BitVec 2) (sh : BitVec 3) (t1 t0 : BitVec 8) (s : State) : State :=
  fireA s pr fun o s => send2 s t1 t0 (mkTok sh (gateLanes pr o.p (mapLanes (f (laneW sh)) (lanesOf sh o.a))))

/-- A one-operand I form (R120, R121). -/
def intImm (f : Nat → Nat → Nat) (pr : BitVec 2) (sh : BitVec 3) (t0 : BitVec 8) (s : State) : State :=
  fireA s pr fun o s => send1 s t0 (mkTok sh (gateLanes pr o.p (mapLanes (f (laneW sh)) (lanesOf sh o.a))))

/-- The lanes of a test: the source lanes are gated (R108), a null one has no result (R122). -/
def testLanes (f : Nat → Nat → Bool) (a b : List (Option Nat)) : List (Option Bool) :=
  List.zipWith (fun x y => match x, y with | some x, some y => some (f x y) | _, _ => none) a b

/-- A register test (R123). -/
def testBin (f : Nat → Nat → Nat → Bool) (pr : BitVec 2) (sh : BitVec 3) (t1 t0 : BitVec 8) (s : State) : State :=
  fireAB s pr fun o s =>
    send2 s t1 t0 (predTok sh (testLanes (f (laneW sh)) (gateLanes pr o.p (lanesOf sh o.a)) (lanesOf sh o.b)))

/-- An immediate test: the lane as a signed integer against the exact immediate (R123). -/
def testImm (f : Int → Int → Bool) (pr : BitVec 2) (sh : BitVec 3) (imm : BitVec 12) (t0 : BitVec 8) (s : State) : State :=
  fireA s pr fun o s =>
    send1 s t0 (predTok sh ((gateLanes pr o.p (lanesOf sh o.a)).map fun l => l.map fun x =>
      f (sextI x (laneW sh)) imm.toInt))

/-! ## Integer forms -/

/-- R118. -/
def execAdd (pr : BitVec 2) (sh : BitVec 3) (t1 t0 : BitVec 8) (s : State) : Out := .next (intBin laneAdd pr sh t1 t0 s)
/-- R118. -/
def execSub (pr : BitVec 2) (sh : BitVec 3) (t1 t0 : BitVec 8) (s : State) : Out := .next (intBin laneSub pr sh t1 t0 s)
/-- R118. -/
def execMul (pr : BitVec 2) (sh : BitVec 3) (t1 t0 : BitVec 8) (s : State) : Out := .next (intBin laneMul pr sh t1 t0 s)
/-- R118. -/
def execMulh (pr : BitVec 2) (sh : BitVec 3) (t1 t0 : BitVec 8) (s : State) : Out := .next (intBin laneMulh pr sh t1 t0 s)
/-- R118. -/
def execMulhu (pr : BitVec 2) (sh : BitVec 3) (t1 t0 : BitVec 8) (s : State) : Out := .next (intBin laneMulhu pr sh t1 t0 s)
/-- R118. -/
def execMulhsu (pr : BitVec 2) (sh : BitVec 3) (t1 t0 : BitVec 8) (s : State) : Out := .next (intBin laneMulhsu pr sh t1 t0 s)
/-- R119. -/
def execDiv (pr : BitVec 2) (sh : BitVec 3) (t1 t0 : BitVec 8) (s : State) : Out := .next (intBin laneDiv pr sh t1 t0 s)
/-- R119. -/
def execDivu (pr : BitVec 2) (sh : BitVec 3) (t1 t0 : BitVec 8) (s : State) : Out := .next (intBin laneDivu pr sh t1 t0 s)
/-- R119. -/
def execRem (pr : BitVec 2) (sh : BitVec 3) (t1 t0 : BitVec 8) (s : State) : Out := .next (intBin laneRem pr sh t1 t0 s)
/-- R119. -/
def execRemu (pr : BitVec 2) (sh : BitVec 3) (t1 t0 : BitVec 8) (s : State) : Out := .next (intBin laneRemu pr sh t1 t0 s)
/-- R118. -/
def execIand (pr : BitVec 2) (sh : BitVec 3) (t1 t0 : BitVec 8) (s : State) : Out := .next (intBin laneAnd pr sh t1 t0 s)
/-- R118. -/
def execIor (pr : BitVec 2) (sh : BitVec 3) (t1 t0 : BitVec 8) (s : State) : Out := .next (intBin laneOr pr sh t1 t0 s)
/-- R118. -/
def execIxor (pr : BitVec 2) (sh : BitVec 3) (t1 t0 : BitVec 8) (s : State) : Out := .next (intBin laneXor pr sh t1 t0 s)
/-- R118. -/
def execAndn (pr : BitVec 2) (sh : BitVec 3) (t1 t0 : BitVec 8) (s : State) : Out := .next (intBin laneAndn pr sh t1 t0 s)
/-- R118. -/
def execOrn (pr : BitVec 2) (sh : BitVec 3) (t1 t0 : BitVec 8) (s : State) : Out := .next (intBin laneOrn pr sh t1 t0 s)
/-- R118. -/
def execShl (pr : BitVec 2) (sh : BitVec 3) (t1 t0 : BitVec 8) (s : State) : Out := .next (intBin laneShl pr sh t1 t0 s)
/-- R118. -/
def execShr (pr : BitVec 2) (sh : BitVec 3) (t1 t0 : BitVec 8) (s : State) : Out := .next (intBin laneShr pr sh t1 t0 s)
/-- R118. -/
def execSra (pr : BitVec 2) (sh : BitVec 3) (t1 t0 : BitVec 8) (s : State) : Out := .next (intBin laneSra pr sh t1 t0 s)
/-- R118. -/
def execRol (pr : BitVec 2) (sh : BitVec 3) (t1 t0 : BitVec 8) (s : State) : Out := .next (intBin laneRol pr sh t1 t0 s)
/-- R118. -/
def execImin (pr : BitVec 2) (sh : BitVec 3) (t1 t0 : BitVec 8) (s : State) : Out := .next (intBin laneMin pr sh t1 t0 s)
/-- R118. -/
def execImax (pr : BitVec 2) (sh : BitVec 3) (t1 t0 : BitVec 8) (s : State) : Out := .next (intBin laneMax pr sh t1 t0 s)
/-- R118. -/
def execMinu (pr : BitVec 2) (sh : BitVec 3) (t1 t0 : BitVec 8) (s : State) : Out := .next (intBin laneMinu pr sh t1 t0 s)
/-- R118. -/
def execMaxu (pr : BitVec 2) (sh : BitVec 3) (t1 t0 : BitVec 8) (s : State) : Out := .next (intBin laneMaxu pr sh t1 t0 s)
/-- R118. -/
def execAdds (pr : BitVec 2) (sh : BitVec 3) (t1 t0 : BitVec 8) (s : State) : Out := .next (intBin laneAdds pr sh t1 t0 s)
/-- R118. -/
def execSubs (pr : BitVec 2) (sh : BitVec 3) (t1 t0 : BitVec 8) (s : State) : Out := .next (intBin laneSubs pr sh t1 t0 s)
/-- R118. -/
def execAddsu (pr : BitVec 2) (sh : BitVec 3) (t1 t0 : BitVec 8) (s : State) : Out := .next (intBin laneAddsu pr sh t1 t0 s)
/-- R118. -/
def execSubsu (pr : BitVec 2) (sh : BitVec 3) (t1 t0 : BitVec 8) (s : State) : Out := .next (intBin laneSubsu pr sh t1 t0 s)
/-- R118. -/
def execClz (pr : BitVec 2) (sh : BitVec 3) (t1 t0 : BitVec 8) (s : State) : Out := .next (intUn laneClz pr sh t1 t0 s)
/-- R118. -/
def execCtz (pr : BitVec 2) (sh : BitVec 3) (t1 t0 : BitVec 8) (s : State) : Out := .next (intUn laneCtz pr sh t1 t0 s)
/-- R118. -/
def execPopc (pr : BitVec 2) (sh : BitVec 3) (t1 t0 : BitVec 8) (s : State) : Out := .next (intUn lanePopc pr sh t1 t0 s)
/-- R118. -/
def execBrev (pr : BitVec 2) (sh : BitVec 3) (t1 t0 : BitVec 8) (s : State) : Out := .next (intUn laneBrev pr sh t1 t0 s)
/-- R118. -/
def execIabs (pr : BitVec 2) (sh : BitVec 3) (t1 t0 : BitVec 8) (s : State) : Out := .next (intUn laneAbs pr sh t1 t0 s)
/-- R120. -/
def execSext (pr : BitVec 2) (sh : BitVec 3) (imm : BitVec 12) (t0 : BitVec 8) (s : State) : Out :=
  .next (intImm (laneSext imm.toNat) pr sh t0 s)
/-- R120. -/
def execZext (pr : BitVec 2) (sh : BitVec 3) (imm : BitVec 12) (t0 : BitVec 8) (s : State) : Out :=
  .next (intImm (laneZext imm.toNat) pr sh t0 s)
/-- R121. -/
def execAddi (pr : BitVec 2) (sh : BitVec 3) (imm : BitVec 12) (t0 : BitVec 8) (s : State) : Out :=
  .next (intImm (fun w a => laneAdd w a (immLane imm w)) pr sh t0 s)
/-- R121. -/
def execAndi (pr : BitVec 2) (sh : BitVec 3) (imm : BitVec 12) (t0 : BitVec 8) (s : State) : Out :=
  .next (intImm (fun w a => laneAnd w a (immLane imm w)) pr sh t0 s)
/-- R121. -/
def execOri (pr : BitVec 2) (sh : BitVec 3) (imm : BitVec 12) (t0 : BitVec 8) (s : State) : Out :=
  .next (intImm (fun w a => laneOr w a (immLane imm w)) pr sh t0 s)
/-- R121. -/
def execXori (pr : BitVec 2) (sh : BitVec 3) (imm : BitVec 12) (t0 : BitVec 8) (s : State) : Out :=
  .next (intImm (fun w a => laneXor w a (immLane imm w)) pr sh t0 s)
/-- R121. -/
def execShli (pr : BitVec 2) (sh : BitVec 3) (imm : BitVec 12) (t0 : BitVec 8) (s : State) : Out :=
  .next (intImm (fun w a => a * 2^imm.toNat % 2^w) pr sh t0 s)
/-- R121. -/
def execShri (pr : BitVec 2) (sh : BitVec 3) (imm : BitVec 12) (t0 : BitVec 8) (s : State) : Out :=
  .next (intImm (fun _ a => a / 2^imm.toNat) pr sh t0 s)
/-- R121. -/
def execSrai (pr : BitVec 2) (sh : BitVec 3) (imm : BitVec 12) (t0 : BitVec 8) (s : State) : Out :=
  .next (intImm (fun w a => wrapN (sextI a w / 2^imm.toNat) w) pr sh t0 s)
/-- R121. -/
def execMuli (pr : BitVec 2) (sh : BitVec 3) (imm : BitVec 12) (t0 : BitVec 8) (s : State) : Out :=
  .next (intImm (fun w a => laneMul w a (immLane imm w)) pr sh t0 s)

/-! ## Tests (R123) -/

/-- R123. -/
def execTeq (pr : BitVec 2) (sh : BitVec 3) (t1 t0 : BitVec 8) (s : State) : Out :=
  .next (testBin (fun _ a b => a == b) pr sh t1 t0 s)
/-- R123. -/
def execTne (pr : BitVec 2) (sh : BitVec 3) (t1 t0 : BitVec 8) (s : State) : Out :=
  .next (testBin (fun _ a b => a != b) pr sh t1 t0 s)
/-- R123. -/
def execTlt (pr : BitVec 2) (sh : BitVec 3) (t1 t0 : BitVec 8) (s : State) : Out :=
  .next (testBin (fun w a b => sextI a w < sextI b w) pr sh t1 t0 s)
/-- R123. -/
def execTle (pr : BitVec 2) (sh : BitVec 3) (t1 t0 : BitVec 8) (s : State) : Out :=
  .next (testBin (fun w a b => sextI a w ≤ sextI b w) pr sh t1 t0 s)
/-- R123. -/
def execTltu (pr : BitVec 2) (sh : BitVec 3) (t1 t0 : BitVec 8) (s : State) : Out :=
  .next (testBin (fun _ a b => a < b) pr sh t1 t0 s)
/-- R123. -/
def execTleu (pr : BitVec 2) (sh : BitVec 3) (t1 t0 : BitVec 8) (s : State) : Out :=
  .next (testBin (fun _ a b => a ≤ b) pr sh t1 t0 s)
/-- R123. -/
def execTeqi (pr : BitVec 2) (sh : BitVec 3) (imm : BitVec 12) (t0 : BitVec 8) (s : State) : Out :=
  .next (testImm (fun a i => a == i) pr sh imm t0 s)
/-- R123. -/
def execTnei (pr : BitVec 2) (sh : BitVec 3) (imm : BitVec 12) (t0 : BitVec 8) (s : State) : Out :=
  .next (testImm (fun a i => a != i) pr sh imm t0 s)
/-- R123. -/
def execTlti (pr : BitVec 2) (sh : BitVec 3) (imm : BitVec 12) (t0 : BitVec 8) (s : State) : Out :=
  .next (testImm (fun a i => a < i) pr sh imm t0 s)
/-- R123. -/
def execTlei (pr : BitVec 2) (sh : BitVec 3) (imm : BitVec 12) (t0 : BitVec 8) (s : State) : Out :=
  .next (testImm (fun a i => a ≤ i) pr sh imm t0 s)
/-- R123. -/
def execTgti (pr : BitVec 2) (sh : BitVec 3) (imm : BitVec 12) (t0 : BitVec 8) (s : State) : Out :=
  .next (testImm (fun a i => i < a) pr sh imm t0 s)

/-! ## Constants, MOV, NUL, SEL, LINK (R113-R117) -/

/-- A block's address plus a signed number of blocks (R110, R113). -/
def blockRel (a : Word) (off : Int) : Word := a + BitVec.ofInt 64 (off * 64)

/-- The address of the block in whose window the firing is. -/
def State.blockAddr (s : State) : Word := match s.curBlock with | some b => b.addr | none => 0

/-- PR 01 on a constant: no operand (R41). -/
def constForm (pr : BitVec 2) (sh : BitVec 3) (t0 : BitVec 8) (ls : List (Option Nat)) (s : State) : State :=
  fire0 s pr fun o s => send1 s t0 (mkTok sh (gateLanes pr o.p ls))

/-- LINK (R113). -/
def linkStep (pr : BitVec 2) (imm : BitVec 12) (t0 : BitVec 8) (s : State) : State :=
  fire0 s pr fun o s => send1 s t0 (gateTok pr 0 o.p (dTok (blockRel s.blockAddr imm.toInt).toNat))
/-- GENC (R114). -/
def gencStep (pr : BitVec 2) (sh : BitVec 3) (imm : BitVec 12) (t0 : BitVec 8) (s : State) : State :=
  constForm pr sh t0 (List.replicate (laneN sh) (some (immLane imm (laneW sh)))) s
/-- NUL (R116). -/
def nulStep (pr : BitVec 2) (sh : BitVec 3) (t0 : BitVec 8) (s : State) : State :=
  constForm pr sh t0 (List.replicate (laneN sh) none) s
/-- VIOTA (R124). -/
def viotaStep (pr : BitVec 2) (sh : BitVec 3) (imm : BitVec 12) (t0 : BitVec 8) (s : State) : State :=
  constForm pr sh t0 ((List.range (laneN sh)).map fun (i : Nat) => some (wrapN (imm.toInt + i) (laneW sh))) s

/-- SEL's lanes: by a scalar selector, or by bit i of a mask (R117). -/
def selLanes (pr : BitVec 2) (p : Token) (a b : List (Option Nat)) : List (Option Nat) :=
  if pr == 1 then
    (List.zip a b).zipIdx.map fun ((x, y), i) =>
      if p.nul.getLsbD (i / 8) then none else if p.pay.getLsbD i then x else y
  else if p.nul.getLsbD 0 then a.map fun _ => none
  else if p.pay.getLsbD 0 == (pr == 3) then a else b

def execLink (pr : BitVec 2) (imm : BitVec 12) (t0 : BitVec 8) (s : State) : Out := .next (linkStep pr imm t0 s)
def execGenc (pr : BitVec 2) (sh : BitVec 3) (imm : BitVec 12) (t0 : BitVec 8) (s : State) : Out := .next (gencStep pr sh imm t0 s)
/-- GENU: lane << 12 | IMM12 unsigned (R114). -/
def execGenu (pr : BitVec 2) (sh : BitVec 3) (imm : BitVec 12) (t0 : BitVec 8) (s : State) : Out :=
  .next (intImm (fun w a => (a * 2^12 + imm.toNat) % 2^w) pr sh t0 s)
/-- MOV passes its token unchanged (R115). -/
def execMov (pr : BitVec 2) (t1 t0 : BitVec 8) (s : State) : Out := .next (fireA s pr fun o s => send2 s t1 t0 o.a)
def execNul (pr : BitVec 2) (sh : BitVec 3) (t0 : BitVec 8) (s : State) : Out := .next (nulStep pr sh t0 s)
/-- SEL fires whatever its selector holds (R117). -/
def execSel (pr : BitVec 2) (sh : BitVec 3) (t1 t0 : BitVec 8) (s : State) : Out :=
  .next (fireWith s true true false true pr fun o s =>
    send2 s t1 t0 (mkTok sh (selLanes pr o.p (lanesOf sh o.a) (lanesOf sh o.b))))

/-! ## Lane and permute operations (R124-R127) -/

/-- A one-operand lane form of a result shape. -/
def laneUn (f : List (Option Nat) → List (Option Nat)) (pr : BitVec 2) (sh : BitVec 3) (t1 t0 : BitVec 8) (s : State) : State :=
  fireA s pr fun o s => send2 s t1 t0 (mkTok sh (gateLanes pr o.p (f (lanesOf sh o.a))))
/-- A two-operand lane form. -/
def laneBin (f : List (Option Nat) → List (Option Nat) → List (Option Nat)) (pr : BitVec 2) (sh : BitVec 3)
    (t1 t0 : BitVec 8) (s : State) : State :=
  fireAB s pr fun o s => send2 s t1 t0 (mkTok sh (gateLanes pr o.p (f (lanesOf sh o.a) (lanesOf sh o.b))))
/-- A reduction to `.d`: PR 01 gates the source lanes (R108). -/
def laneRed (f : List (Option Nat) → Option Nat) (pr : BitVec 2) (sh : BitVec 3) (t1 t0 : BitVec 8) (s : State) : State :=
  fireA s pr fun o s => send2 s t1 t0 (mkTok 0 [f (gateLanes pr o.p (lanesOf sh o.a))])

/-- Lane `i` of a list, null outside it. -/
def nthLane (l : List (Option Nat)) (i : Nat) : Option Nat := (l[i]?).join

def permLanes (a b : List (Option Nat)) : List (Option Nat) :=
  b.map fun j => j.bind fun j => nthLane a (j % a.length)
def zipHalf (a b : List (Option Nat)) : List (Option Nat) :=
  (List.range a.length).map fun i => if i % 2 = 0 then nthLane a (i / 2) else nthLane b (i / 2)
def unzipHalf (a b : List (Option Nat)) : List (Option Nat) :=
  (List.range a.length).map fun i =>
    if i < a.length / 2 then nthLane a (2 * i) else nthLane b (2 * (i - a.length / 2))
/-- VCMPR: the selected non-null lanes, packed low, the rest null (R126). -/
def cmprLanes (m : Token) (a : List (Option Nat)) : List (Option Nat) :=
  let sel := (a.zipIdx.filter fun (l, i) => maskBit m i && l.isSome).map (·.1)
  sel ++ List.replicate (a.length - sel.length) none
def slideLanes (k : Int) (a : List (Option Nat)) : List (Option Nat) :=
  (List.range a.length).map fun (i : Nat) =>
    if 0 ≤ (i : Int) - k ∧ (i : Int) - k < a.length then nthLane a ((i : Int) - k).toNat else some 0
/-- VSCAN: running sums over the non-null lanes (R127). -/
def scanLanes (w acc : Nat) : List (Option Nat) → List (Option Nat)
  | [] => []
  | none :: ls => none :: scanLanes w acc ls
  | some x :: ls => some ((acc + x) % 2^w) :: scanLanes w ((acc + x) % 2^w) ls
/-- The four reductions: over the non-null lanes, null when there is none (R127). -/
def redLanes (f : Int → Int → Int) (g : Nat → Int) (ls : List (Option Nat)) : Option Nat :=
  match (ls.filterMap id).map g with
  | [] => none
  | x :: xs => some (wrapN (xs.foldl f x) 64)

def execVperm (pr : BitVec 2) (sh : BitVec 3) (t1 t0 : BitVec 8) (s : State) : Out := .next (laneBin permLanes pr sh t1 t0 s)
def execVzip (pr : BitVec 2) (sh : BitVec 3) (t1 t0 : BitVec 8) (s : State) : Out := .next (laneBin zipHalf pr sh t1 t0 s)
def execVunzip (pr : BitVec 2) (sh : BitVec 3) (t1 t0 : BitVec 8) (s : State) : Out := .next (laneBin unzipHalf pr sh t1 t0 s)
/-- R126. -/
def execVcmpr (pr : BitVec 2) (sh : BitVec 3) (t1 t0 : BitVec 8) (s : State) : Out :=
  .next (fireAB s pr fun o s => send2 s t1 t0 (mkTok sh (gateLanes pr o.p (cmprLanes o.b (lanesOf sh o.a)))))
def execVbcast (pr : BitVec 2) (sh : BitVec 3) (t1 t0 : BitVec 8) (s : State) : Out :=
  .next (laneUn (fun a => a.map fun _ => nthLane a 0) pr sh t1 t0 s)
def execVscan (pr : BitVec 2) (sh : BitVec 3) (t1 t0 : BitVec 8) (s : State) : Out :=
  .next (laneUn (scanLanes (laneW sh) 0) pr sh t1 t0 s)
def execVredadd (pr : BitVec 2) (sh : BitVec 3) (t1 t0 : BitVec 8) (s : State) : Out :=
  .next (laneRed (redLanes (· + ·) (sextI · (laneW sh))) pr sh t1 t0 s)
def execVredmin (pr : BitVec 2) (sh : BitVec 3) (t1 t0 : BitVec 8) (s : State) : Out :=
  .next (laneRed (redLanes min (sextI · (laneW sh))) pr sh t1 t0 s)
def execVredmax (pr : BitVec 2) (sh : BitVec 3) (t1 t0 : BitVec 8) (s : State) : Out :=
  .next (laneRed (redLanes max (sextI · (laneW sh))) pr sh t1 t0 s)
def execVredor (pr : BitVec 2) (sh : BitVec 3) (t1 t0 : BitVec 8) (s : State) : Out :=
  .next (laneRed (redLanes (fun x y => ((x.toNat ||| y.toNat : Nat) : Int)) (fun x => (x : Int))) pr sh t1 t0 s)
/-- MASKPOP counts the bits of the first L payload bits that lie in no null byte; PR 01 gates the lanes of A in which they
lie (R108, R127). -/
def execMaskpop (pr : BitVec 2) (sh : BitVec 3) (t1 t0 : BitVec 8) (s : State) : Out :=
  .next (fireA s pr fun o s =>
    let counts (j : Nat) : Bool := maskBit o.a j && (pr != 1 || maskBit o.p (j / laneW sh))
    send2 s t1 t0 (dTok ((List.range (laneN sh)).filter counts).length))
/-- VEXT (R124). -/
def execVext (pr : BitVec 2) (sh : BitVec 3) (imm : BitVec 12) (t0 : BitVec 8) (s : State) : Out :=
  .next (fireA s pr fun o s => send1 s t0 (mkTok 0 [nthLane (gateLanes pr o.p (lanesOf sh o.a)) imm.toNat]))
/-- VINS (R124). -/
def execVins (pr : BitVec 2) (sh : BitVec 3) (lane : BitVec 4) (t1 t0 : BitVec 8) (s : State) : Out :=
  .next (laneBin (fun a b => onNth (fun _ => nthLane b 0) a lane.toNat) pr sh t1 t0 s)
/-- VSLIDE (R124). -/
def execVslide (pr : BitVec 2) (sh : BitVec 3) (imm : BitVec 12) (t0 : BitVec 8) (s : State) : Out :=
  .next (fireA s pr fun o s => send1 s t0 (mkTok sh (gateLanes pr o.p (slideLanes imm.toInt (lanesOf sh o.a)))))
def execViota (pr : BitVec 2) (sh : BitVec 3) (imm : BitVec 12) (t0 : BitVec 8) (s : State) : Out := .next (viotaStep pr sh imm t0 s)

end Sys2Proof.Machine
end

