-- ==== Sys2Proof/Machine/Float.lean ====
section
/-! DEFINITION. Number formats and exact arithmetic (chapter 06). A value is an `Ex`, exact; RND (R58) is the one place
that rounds, on a magnitude `m × 2^e` with a sticky mark for what a truncated exact value has below it. -/

namespace Sys2Proof.Machine

/-- How a format's top codes and zeros are read (R132, R134, R136, R138). -/
inductive FmtKind where
  | ieee
  | e4m3
  | e2m1
  /-- a B8 or UB8 format, with its INF bit -/
  | b8 (inf : Bool)
  deriving DecidableEq, Repr

/-- A binary format: exponent bits, fraction bits, bias, signed, kind. -/
structure Fmt where
  eb : Nat
  fb : Nat
  bias : Nat
  sgn : Bool
  kind : FmtKind
  deriving DecidableEq, Repr

def f32 : Fmt := ⟨8, 23, 127, true, .ieee⟩
def bf16 : Fmt := ⟨8, 7, 127, true, .ieee⟩
def f16 : Fmt := ⟨5, 10, 15, true, .ieee⟩
def e4m3 : Fmt := ⟨4, 3, 7, true, .e4m3⟩
def e5m2 : Fmt := ⟨5, 2, 15, true, .ieee⟩
def e2m1 : Fmt := ⟨2, 1, 1, true, .e2m1⟩
/-- B8pP and UB8pP (R134, R136): w exponent bits, bias 2^(w-1). -/
def b8Fmt (u : Bool) (p : Nat) (inf : Bool) : Fmt :=
  if u then ⟨9 - p, p - 1, 2^(8 - p), false, .b8 inf⟩ else ⟨8 - p, p - 1, 2^(7 - p), true, .b8 inf⟩
/-- A 5-bit descriptor: U, P, INF (R79). -/
def b8Desc (d : Nat) : Fmt := b8Fmt (d / 16 % 2 == 1) (d / 2 % 8) (d % 2 == 1)

/-- Weight of the sign bit; the magnitude code is below it. -/
def Fmt.top (f : Fmt) : Nat := 2^(f.eb + f.fb)
/-- Largest finite magnitude code (R132, R135, R137, R138). -/
def Fmt.maxCode (f : Fmt) : Nat :=
  match f.kind with
  | .ieee => (2^f.eb - 1) * 2^f.fb - 1
  | .e4m3 => 0x7E
  | .e2m1 => 7
  | .b8 inf => f.top - 1 - (if inf then 1 else 0) - (if f.sgn then 0 else 1)
def Fmt.hasInf (f : Fmt) : Bool := match f.kind with | .ieee => true | .b8 inf => inf | _ => false
/-- Canonical NaN (R132, R134, R136, R138); a format with no NaN gives code 0. -/
def Fmt.nan (f : Fmt) : Nat :=
  match f.kind with
  | .ieee => (2^f.eb - 1) * 2^f.fb + 2^(f.fb - 1)
  | .e4m3 => 0x7F
  | .e2m1 => 0
  | .b8 _ => if f.sgn then f.top else f.top - 1
/-- Exponent of the least significant bit of a subnormal. -/
def Fmt.qmin (f : Fmt) : Int := 1 - (f.bias : Int) - f.fb

/-- The value of a magnitude code that is finite. -/
def magVal (f : Fmt) (neg : Bool) (c : Nat) : Ex :=
  let e := c / 2^f.fb
  let m := c % 2^f.fb
  if e = 0 then .num neg m f.qmin else .num neg (2^f.fb + m) (f.qmin + (e - 1))

/-- The value of a code (R132, R134, R136, R138). -/
def decodeF (f : Fmt) (code : Nat) : Ex :=
  let c := code % f.top
  let neg := f.sgn && code / f.top % 2 == 1
  match f.kind with
  | .ieee =>
    if c ≤ f.maxCode then magVal f neg c else if c == f.maxCode + 1 then .inf neg else .nan
  | .e4m3 => if c == 0x7F then .nan else magVal f neg c
  | .e2m1 => magVal f neg c
  | .b8 inf =>
    if f.sgn then
      if c == 0 then (if neg then .nan else .num false 0 0)
      else if inf && c == f.top - 1 then .inf neg else magVal f neg c
    else
      let c := code % (f.top)
      if c == f.top - 1 then .nan else if inf && c == f.top - 2 then .inf false
      else if c == 0 then .num false 0 0 else magVal f false c

/-- Rounding directions: 0 RNE, 1 RTZ, 2 RUP, 3 RDN (R97). -/
abbrev RM := Nat

/-- The sign bit of a code, where the format has one and keeps it on zero. -/
def signCode (f : Fmt) (neg : Bool) (c : Nat) : Nat :=
  if !neg || !f.sgn then c
  else match f.kind with
    | .b8 _ => if c = 0 then 0 else c + f.top
    | _ => c + f.top

/-- Away from zero, in direction `m`, for a magnitude of this sign. -/
def awayDir (m : RM) (neg : Bool) : Bool := (m == 2 && !neg) || (m == 3 && neg)

/-- Overflow of RND (R58). -/
def overflowCode (f : Fmt) (m : RM) (neg : Bool) : Nat :=
  if f.hasInf && (m == 0 || awayDir m neg) then signCode f neg (f.maxCode + 1) else signCode f neg f.maxCode

/-- RND (R58) of ± m × 2^e, with `sticky` for a part below: to the code. Ties under RNE go to the even code, which is
the even significand, and the even exponent field where there is no fraction bit. -/
def rndMag (f : Fmt) (m : RM) (neg : Bool) (mag : Nat) (e : Int) (sticky : Bool) : Nat :=
  if neg && !f.sgn then 0
  else if mag = 0 ∧ sticky = false then signCode f neg 0
  else
    let ex : Int := if mag = 0 then f.qmin - 4 else (Nat.log2 mag : Int) + e
    let emax : Int := f.qmin + f.fb + 2^f.eb
    if emax < ex then overflowCode f m neg
    else if ex < f.qmin - 2 then
      signCode f neg (if awayDir m neg then 1 else 0)
    else
      let q := max (ex - f.fb) f.qmin
      let sh := q - e
      let n := if 0 < sh then mag / 2^sh.toNat else mag * 2^(-sh).toNat
      let rem := if 0 < sh then mag % 2^sh.toNat else 0
      let half := if 0 < sh then 2^(sh.toNat - 1) else 1
      let c0 := ((q - f.qmin) * 2^f.fb).toNat + n
      let inexact := rem != 0 || sticky
      let up :=
        if m == 0 then decide (half < rem) || (rem == half && (sticky || c0 % 2 == 1))
        else awayDir m neg && inexact
      let c := if up then c0 + 1 else c0
      if f.maxCode < c then overflowCode f m neg else signCode f neg c

/-- RND of an exact value to the code of format `f` (R58, R133). -/
def rndCode (f : Fmt) (m : RM) : Ex → Nat
  | .nan => f.nan
  | .inf neg =>
    if neg && !f.sgn then 0
    else if f.hasInf then signCode f neg (f.maxCode + 1) else signCode f neg f.maxCode
  | .num neg mag e => rndMag f m neg mag e false

/-- RND as a value. -/
def rnd (f : Fmt) (m : RM) (x : Ex) : Ex := decodeF f (rndCode f m x)

/-! ## Exact operations -/

def exIsNan : Ex → Bool | .nan => true | _ => false
/-- x with the sign inverted. -/
def exNeg : Ex → Ex
  | .nan => .nan
  | .inf n => .inf (!n)
  | .num n m e => .num (!n) m e
/-- The sign bit of a value that is not NaN. -/
def exSign : Ex → Bool | .nan => false | .inf n => n | .num n _ _ => n
def exIsZero : Ex → Bool | .num _ 0 _ => true | _ => false
def exZero : Ex := .num false 0 0

/-- m × 2^(e - e0) for e0 ≤ e. -/
def alignUp (m : Nat) (e e0 : Int) : Nat := m * 2^(e - e0).toNat

/-- Exact sum (IEEE 754-2019): opposite infinities give NaN; an exact zero sum of opposite signs is -0 only when
`rdn` (R153). -/
def exAdd (rdn : Bool) : Ex → Ex → Ex
  | .nan, _ => .nan
  | _, .nan => .nan
  | .inf a, .inf b => if a == b then .inf a else .nan
  | .inf a, .num .. => .inf a
  | .num .., .inf b => .inf b
  | .num a m e, .num b n k =>
    if m = 0 then (if n = 0 then .num (if a == b then a else rdn) 0 0 else .num b n k)
    else if n = 0 then .num a m e
    else
      let e0 := min e k
      let x := alignUp m e e0
      let y := alignUp n k e0
      if a == b then .num a (x + y) e0
      else if x = y then .num rdn 0 0
      else if y < x then .num a (x - y) e0 else .num b (y - x) e0

/-- Exact product. -/
def exMul : Ex → Ex → Ex
  | .nan, _ => .nan
  | _, .nan => .nan
  | .inf a, .inf b => .inf (a != b)
  | .inf a, .num b n _ => if n = 0 then .nan else .inf (a != b)
  | .num a m _, .inf b => if m = 0 then .nan else .inf (a != b)
  | .num a m e, .num b n k => if m = 0 ∨ n = 0 then .num (a != b) 0 0 else .num (a != b) (m * n) (e + k)

/-- x < y for values that are not NaN; the zeros compare equal (R133). -/
def exLt : Ex → Ex → Bool
  | .nan, _ => false
  | _, .nan => false
  | .inf a, .inf b => a && !b
  | .inf a, .num .. => a
  | .num .., .inf b => !b
  | .num a m e, .num b n k =>
    let e0 := min e k
    let x : Int := if a then -(alignUp m e e0) else alignUp m e e0
    let y : Int := if b then -(alignUp n k e0) else alignUp n k e0
    x < y
def exEq (x y : Ex) : Bool := !exIsNan x && !exIsNan y && !exLt x y && !exLt y x

/-- An integer as an exact value. -/
def exInt (x : Int) : Ex := .num (x < 0) x.natAbs 0

/-- x as an integer in direction `m`, ties to even under RNE (R141); an infinity as none. -/
def roundInt (m : RM) (neg : Bool) (mag : Nat) (e : Int) : Int :=
  if mag = 0 then 0
  else if 0 ≤ e then (if neg then -(mag * 2^(min e.toNat 4096) : Nat) else (mag * 2^(min e.toNat 4096) : Nat))
  else if (Nat.log2 mag : Int) + e < -1 then (if awayDir m neg then (if neg then -1 else 1) else 0)
  else
    let k := (-e).toNat
    let n := mag / 2^k
    let rem := mag % 2^k
    let up := if m == 0 then decide (2^(k-1) < rem) || (rem == 2^(k-1) && n % 2 == 1) else awayDir m neg && rem != 0
    let n := if up then n + 1 else n
    if neg then -(n : Int) else n

/-- SAT(round_to_integer(x, m), lo, hi); NaN gives 0 (R141). -/
def exToInt (m : RM) (lo hi : Int) : Ex → Int
  | .nan => 0
  | .inf neg => if neg then lo else hi
  | .num neg mag e => satI (roundInt m neg mag e) lo hi

/-- SAT(x, -max_F, max_F) before rounding (R141). -/
def exSat (f : Fmt) (x : Ex) : Ex :=
  let mx := magVal f false f.maxCode
  match x with
  | .nan => .nan
  | x => if exLt mx x then mx else if exLt x (exNeg mx) then exNeg mx else x

/-- Replace negative values, -0 and -∞ by 0: UB8 destinations (R141). -/
def exNonNeg (f : Fmt) (x : Ex) : Ex := if !f.sgn && exSign x then exZero else x

/-- A conversion to a float format (R141): `inf` lets overflow be infinite. -/
def convCode (f : Fmt) (m : RM) (inf : Bool) (x : Ex) : Nat :=
  let x := exNonNeg f x
  if inf then rndCode f m x else rndCode f m (exSat f x)

/-! ## Quotients and roots (R153, R154), correctly rounded through a truncated value and a sticky mark -/

/-- a / b, with the special cases of R153. -/
def divCode (f : Fmt) (m : RM) : Ex → Ex → Nat
  | .nan, _ => f.nan
  | _, .nan => f.nan
  | .inf _, .inf _ => f.nan
  | .inf a, .num b _ _ => rndCode f m (.inf (a != b))
  | .num a _ _, .inf b => signCode f (a != b) 0
  | .num a x e, .num b y k =>
    if y = 0 then (if x = 0 then f.nan else rndCode f m (.inf (a != b)))
    else if x = 0 then signCode f (a != b) 0
    else
      let sh := Nat.log2 y + 64
      rndMag f m (a != b) (x * 2^sh / y) (e - k - sh) (x * 2^sh % y != 0)

/-- The largest r with r² ≤ n and r - r0 < 2^k, bit by bit. -/
def isqrtFrom (n : Nat) : Nat → Nat → Nat
  | 0, r => r
  | k + 1, r => if (r + 2^k) * (r + 2^k) ≤ n then isqrtFrom n k (r + 2^k) else isqrtFrom n k r
def isqrt (n : Nat) : Nat := isqrtFrom n (Nat.log2 n / 2 + 1) 0

/-- An even exponent: m × 2^e = m' × 2^(2 h). -/
def evenExp (m : Nat) (e : Int) : Nat × Int := if e % 2 = 0 then (m, e / 2) else (2 * m, (e - 1) / 2)

def sqrtCode (f : Fmt) (m : RM) : Ex → Nat
  | .nan => f.nan
  | .inf neg => if neg then f.nan else rndCode f m (.inf false)
  | .num neg x e =>
    if x = 0 then signCode f neg 0
    else if neg then f.nan
    else
      let (y, h) := evenExp x e
      let r := isqrt (y * 2^80)
      rndMag f m false r (h - 40) (r * r != y * 2^80)

def rsqrtCode (f : Fmt) (m : RM) : Ex → Nat
  | .nan => f.nan
  | .inf neg => if neg then f.nan else 0
  | .num neg x e =>
    if x = 0 then rndCode f m (.inf neg)
    else if neg then f.nan
    else
      let (y, h) := evenExp x e
      let k := Nat.log2 y / 2 + 64
      let r := isqrt (2^(2 * k) / y)
      rndMag f m false r (-h - k) (r * r * y != 2^(2 * k))

/-! ## 2^x and log2 x (R154): 200 and 120 correct bits before the one rounding -/

/-- 2^(0.b₁…bₖ) in units of 2^-200, bits given from the last: each step a root of the doubled or plain value. -/
def exp2Frac (bs : List Bool) : Nat :=
  bs.foldl (fun y b => isqrt ((if b then 2 * y else y) * 2^200)) (2^200)

def exp2Code (f : Fmt) (m : RM) : Ex → Nat
  | .nan => f.nan
  | .inf neg => if neg then 0 else rndCode f m (.inf false)
  | .num neg x e =>
    if x = 0 then rndMag f m false 1 0 false
    else if 12 ≤ (Nat.log2 x : Int) + e then rndMag f m false 1 (if neg then -4096 else 4096) (neg)
    else if 0 ≤ e then
      let n : Int := x * 2^e.toNat
      rndMag f m false 1 (if neg then -n else n) false
    else
      let k := (-e).toNat
      let a : Int := if neg then -x else x
      let n := a / 2^k
      let fr := (a % 2^k).toNat
      if fr = 0 then rndMag f m false 1 n false
      else rndMag f m false (exp2Frac ((List.range k).map fun i => fr.testBit i)) (n - 200) true

/-- `n` bits of log2 of y / 2^300 in [1, 2), by repeated squaring. -/
def log2Bits : Nat → Nat → Nat → Nat
  | 0, _, acc => acc
  | n + 1, y, acc =>
    let z := y * y / 2^300
    if 2^301 ≤ z then log2Bits n (z / 2) (2 * acc + 1) else log2Bits n z (2 * acc)

def log2Code (f : Fmt) (m : RM) : Ex → Nat
  | .nan => f.nan
  | .inf neg => if neg then f.nan else rndCode f m (.inf false)
  | .num neg x e =>
    if x = 0 then rndCode f m (.inf true)
    else if neg then f.nan
    else
      let l := Nat.log2 x
      let n : Int := l + e
      if x = 2^l then rndCode f m (exInt n)
      else
        let v : Int := n * 2^120 + log2Bits 120 (x * 2^300 / 2^l) 0
        if 0 ≤ v then rndMag f m false v.toNat (-120) true else rndMag f m true (-v - 1).toNat (-120) true

/-! ## Sums in a fixed order -/

/-- One level of the pairwise tree (R145). -/
def pairUp (add : Ex → Ex → Ex) : List (Option Ex) → List (Option Ex)
  | a :: b :: ts => (match a, b with
      | some x, some y => some (add x y)
      | some x, none => some x
      | none, y => y) :: pairUp add ts
  | ts => ts

/-- The pairwise tree over up to 2^n lanes (R145). -/
def treeSum (add : Ex → Ex → Ex) : Nat → List (Option Ex) → Option Ex
  | 0, ts => ts.head?.join
  | n + 1, ts => treeSum add n (pairUp add ts)

/-- One chunk of a matrix contraction: the exact sum of exact products (R143); an exact zero is -0 when every
product is -0 (R144). -/
def chunkSum (ps : List Ex) : Ex :=
  match ps with
  | [] => exZero
  | p :: ps => ps.foldl (exAdd false) p

/-- Accumulation of a chunk: the chunk rounded to FP32, then the sum (R143). -/
def accChunk (acc : Ex) (ps : List Ex) : Ex := rnd f32 0 (exAdd false acc (rnd f32 0 (chunkSum ps)))

/-! ## Microscaling (R138-R140) -/

/-- 2^(c-127) of an E8M0 code; 0xFF is NaN (R139). -/
def e8m0 (c : Nat) : Ex := if c = 255 then .nan else .num false 1 ((c : Int) - 127)

/-- value_i of an MX block (R140): an infinity or NaN element keeps its value, scale 0xFF makes the block NaN. -/
def mxVal (f : Fmt) (scale code : Nat) : Ex :=
  if scale = 255 then .nan
  else match decodeF f code with
    | .num n m e => .num n m (e + scale - 127)
    | v => v

/-- floor(log2 |x|) of a non-zero number. -/
def exLog2 : Ex → Int
  | .num _ m e => (Nat.log2 m : Int) + e
  | _ => 0

def exAbs : Ex → Ex | .nan => .nan | .inf _ => .inf false | .num _ m e => .num false m e

/-- The scale and codes of one block of 32 quantised values (R167, R353): E8M0 code and element codes. -/
def mxQuant (f : Fmt) (emax : Int) (cs : List Ex) : Nat × List Nat :=
  if cs.any fun c => match c with | .num .. => false | _ => true then (255, cs.map fun _ => 0)
  else
    let top := cs.foldl (fun a c => if exLt a (exAbs c) then exAbs c else a) exZero
    if exIsZero top then (0, cs.map fun _ => 0)
    else
      let e := satI (exLog2 top - emax) (-127) 127
      ((e + 127).toNat, cs.map fun c => match c with
        | .num n m k => rndCode f 0 (exSat f (.num n m (k - e)))
        | _ => 0)

end Sys2Proof.Machine
end

