-- ==== Sys2Proof/Machine/FloatInstr.lean ====
section
/-! DEFINITION. The floating-point forms of majors 0x40-0x4B (chapter 07, R150-R162). -/

namespace Sys2Proof.Machine

/-- Element format of a group (R150): 0 FP32, 1 BF16, 2 FP16. -/
def tyFmt (ty : BitVec 2) : Fmt := match ty.toNat with | 0 => f32 | 1 => bf16 | _ => f16
/-- Bits of a format. -/
def Fmt.width (f : Fmt) : Nat := f.eb + f.fb + (if f.sgn then 1 else 0)

/-- FPMODE as at block start: it changes only at commits (R98). -/
structure FpCtx where
  f : Fmt
  rm : Nat
  fz : Bool
  deriving DecidableEq, Repr

def State.fpmode (s : State) : Word := (s.strand s.cur.1 s.cur.2.1).fpmode
def State.fpCtx (s : State) (ty : BitVec 2) : FpCtx := ⟨tyFmt ty, bits s.fpmode 0 2, s.fpmode.getLsbD 2⟩

/-- Flush of a subnormal code, in() and out() (R152). -/
def flushCode (f : Fmt) (fz : Bool) (c : Nat) : Nat :=
  if fz && c % f.top != 0 && c % f.top / 2^f.fb == 0 then c - c % f.top else c

/-- The element in a lane: its low bits (R151). -/
def elemCode (f : Fmt) (lane : Nat) : Nat := lane % 2^f.width
/-- in() of an element (R152). -/
def inVal (c : FpCtx) (lane : Nat) : Ex := decodeF c.f (flushCode c.f c.fz (elemCode c.f lane))
/-- out() of RND of a value, as a code (R152). -/
def outCode (c : FpCtx) (x : Ex) : Nat := flushCode c.f c.fz (rndCode c.f c.rm x)

/-! ## Elements -/

def feAdd (c : FpCtx) (_w a b : Nat) : Nat := outCode c (exAdd (c.rm == 3) (inVal c a) (inVal c b))
def feSub (c : FpCtx) (_w a b : Nat) : Nat := outCode c (exAdd (c.rm == 3) (inVal c a) (exNeg (inVal c b)))
def feMul (c : FpCtx) (_w a b : Nat) : Nat := outCode c (exMul (inVal c a) (inVal c b))
def feDiv (c : FpCtx) (_w a b : Nat) : Nat := flushCode c.f c.fz (divCode c.f c.rm (inVal c a) (inVal c b))
/-- b is the smaller, with -0 below +0. -/
def exBelow (b a : Ex) : Bool := exLt b a || (exEq a b && exSign b && !exSign a)
def feMin (c : FpCtx) (_w a b : Nat) : Nat :=
  let x := inVal c a
  let y := inVal c b
  if exIsNan x || exIsNan y then c.f.nan else rndCode c.f 0 (if exBelow y x then y else x)
def feMax (c : FpCtx) (_w a b : Nat) : Nat :=
  let x := inVal c a
  let y := inVal c b
  if exIsNan x || exIsNan y then c.f.nan else rndCode c.f 0 (if exBelow x y then y else x)
/-- FCPYS: the sign bit of B's element (R153). -/
def feCpys (c : FpCtx) (_w a b : Nat) : Nat :=
  let x := elemCode c.f a
  if exIsNan (decodeF c.f x) then c.f.nan else x % c.f.top + elemCode c.f b / c.f.top * c.f.top
/-- FSCL: B's lane is an integer of the lane's width (R153). -/
def feScl (c : FpCtx) (w a b : Nat) : Nat :=
  match inVal c a with
  | .num n m e => if m = 0 then rndCode c.f 0 (.num n 0 0) else flushCode c.f c.fz (rndMag c.f c.rm n m (e + sextI b w) false)
  | x => rndCode c.f 0 x

def feSqrt (c : FpCtx) (_w a : Nat) : Nat := flushCode c.f c.fz (sqrtCode c.f c.rm (inVal c a))
def feRcp (c : FpCtx) (_w a : Nat) : Nat := flushCode c.f c.fz (divCode c.f c.rm (.num false 1 0) (inVal c a))
def feRsq (c : FpCtx) (_w a : Nat) : Nat := flushCode c.f c.fz (rsqrtCode c.f c.rm (inVal c a))
def feAbs (c : FpCtx) (_w a : Nat) : Nat :=
  if exIsNan (decodeF c.f (elemCode c.f a)) then c.f.nan else elemCode c.f a % c.f.top
def feNeg (c : FpCtx) (_w a : Nat) : Nat :=
  let x := elemCode c.f a
  if exIsNan (decodeF c.f x) then c.f.nan else if x < c.f.top then x + c.f.top else x - c.f.top
def feExp2 (c : FpCtx) (_w a : Nat) : Nat := flushCode c.f c.fz (exp2Code c.f c.rm (inVal c a))
def feLog2 (c : FpCtx) (_w a : Nat) : Nat := flushCode c.f c.fz (log2Code c.f c.rm (inVal c a))
/-- FCLASS: one bit of the class (R157). -/
def feClass (c : FpCtx) (_w a : Nat) : Nat :=
  let x := elemCode c.f a
  let neg := x / c.f.top % 2 == 1
  let g := x % c.f.top
  match decodeF c.f x with
  | .nan => 256
  | .inf _ => if neg then 1 else 128
  | _ =>
    if g = 0 then (if neg then 8 else 16)
    else if g / 2^c.f.fb = 0 then (if neg then 4 else 32)
    else if neg then 2 else 64

def feEq (c : FpCtx) (a b : Nat) : Bool := exEq (inVal c a) (inVal c b)
def feLt (c : FpCtx) (a b : Nat) : Bool := exLt (inVal c a) (inVal c b)
def feLe (c : FpCtx) (a b : Nat) : Bool := feLt c a b || feEq c a b
def feUn (c : FpCtx) (a b : Nat) : Bool := exIsNan (inVal c a) || exIsNan (inVal c b)

/-! ## Firing forms -/

/-- A binary form (R153): PR 01 gates the result elements (R151). -/
def floatBin (g : FpCtx → Nat → Nat → Nat → Nat) (ty pr : BitVec 2) (sh : BitVec 3) (t1 t0 : BitVec 8) (s : State) : State :=
  fireAB s pr fun o s =>
    send2 s t1 t0 (mkTok sh (gateLanes pr o.p (zipLanes (g (s.fpCtx ty) (laneW sh)) (lanesOf sh o.a) (lanesOf sh o.b))))
/-- A unary form (R154). -/
def floatUn (g : FpCtx → Nat → Nat → Nat) (ty pr : BitVec 2) (sh : BitVec 3) (t1 t0 : BitVec 8) (s : State) : State :=
  fireA s pr fun o s =>
    send2 s t1 t0 (mkTok sh (gateLanes pr o.p (mapLanes (g (s.fpCtx ty) (laneW sh)) (lanesOf sh o.a))))
/-- A compare: PR 01 gates the source elements (R151, R156). -/
def floatTest (g : FpCtx → Nat → Nat → Bool) (ty pr : BitVec 2) (sh : BitVec 3) (t1 t0 : BitVec 8) (s : State) : State :=
  fireAB s pr fun o s =>
    send2 s t1 t0 (predTok sh (testLanes (g (s.fpCtx ty)) (gateLanes pr o.p (lanesOf sh o.a)) (lanesOf sh o.b)))
/-- The sum of two values in the tree of R145, rounded and flushed. -/
def treeAdd (c : FpCtx) (x y : Ex) : Ex := decodeF c.f (outCode c (exAdd (c.rm == 3) x y))
/-- FREDADD (R159). -/
def fredaddStep (ty pr : BitVec 2) (sh : BitVec 3) (t1 t0 : BitVec 8) (s : State) : State :=
  fireA s pr fun o s =>
    let c := s.fpCtx ty
    let es := (gateLanes pr o.p (lanesOf sh o.a)).map fun l => l.map (inVal c)
    send2 s t1 t0 (mkTok 1 [(treeSum (treeAdd c) 5 es).map (rndCode c.f 0)])
/-- FDOT: products and sums in FP32 (R160). -/
def fdotStep (ty pr : BitVec 2) (sh : BitVec 3) (t1 t0 : BitVec 8) (s : State) : State :=
  fireAB s pr fun o s =>
    let c := s.fpCtx ty
    let d : FpCtx := { c with f := f32 }
    let ps := List.zipWith (fun x y => match x, y with
      | some x, some y => some (decodeF f32 (outCode d (exMul (inVal c x) (inVal c y))))
      | _, _ => none) (gateLanes pr o.p (lanesOf sh o.a)) (lanesOf sh o.b)
    send2 s t1 t0 (mkTok 1 [(treeSum (treeAdd d) 5 ps).map (rndCode f32 0)])
/-- Mark NF for the commit (R98). -/
def markNf (s : State) (nf : Bool) : State :=
  if nf then s.onBlock s.cur.1 s.cur.2.1 fun b => { b with nf := true } else s
/-- NFCHK (R158). -/
def nfchkStep (ty pr : BitVec 2) (sh : BitVec 3) (t1 t0 : BitVec 8) (s : State) : State :=
  fireA s pr fun o s =>
    let f := tyFmt ty
    let hit := (gateLanes pr o.p (lanesOf sh o.a)).map fun l => match l with
      | some x => (match decodeF f (elemCode f x) with | .num .. => false | _ => true)
      | none => false
    send2 (markNf s (hit.any id)) t1 t0 (dTok (packLanes 1 (hit.map fun h => some (if h then 1 else 0))))
/-- A three-operand form (R155): one rounding. -/
def floatTern (g : FpCtx → Ex → Ex → Ex → Ex) (ty : BitVec 2) (sh : BitVec 3) (t1 t0 : BitVec 8) (s : State) : State :=
  fireWith s true true true false 3 fun o s =>
    let c := s.fpCtx ty
    let ab := List.zip (lanesOf sh o.a) (lanesOf sh o.b)
    send2 s t1 t0 (mkTok sh (List.zipWith (fun (x, y) z => match x, y, z with
      | some x, some y, some z => some (outCode c (g c (inVal c x) (inVal c y) (inVal c z)))
      | _, _, _ => none) ab (lanesOf sh o.p)))

def exFma (c : FpCtx) (a b d : Ex) : Ex := exAdd (c.rm == 3) (exMul a b) d
def exFms (c : FpCtx) (a b d : Ex) : Ex := exAdd (c.rm == 3) (exMul a b) (exNeg d)
def exFnma (c : FpCtx) (a b d : Ex) : Ex := exAdd (c.rm == 3) d (exNeg (exMul a b))

/-- SX(a, b) = 2^(a-b) for b ≥ a (R146). -/
def sx (c : FpCtx) (a b : Ex) : Ex :=
  match a, b with
  | .nan, _ => .nan
  | _, .nan => .nan
  | .inf true, _ => exZero
  | .inf false, .inf false => .num false 1 0
  | .inf false, _ => .nan
  | .num .., .inf _ => exZero
  | .num .., .num .. =>
    decodeF c.f (flushCode c.f c.fz (exp2Code c.f c.rm (decodeF c.f (outCode c (exAdd (c.rm == 3) a (exNeg b))))))

/-- Lanes 0-2 of VMAXEXP: m', s', r, and whether it marks NF (R162, R148). A NaN in m or s, or in a score, makes m' NaN
(R147). -/
def vmaxexpVals (c : FpCtx) (g : Fmt) (m s k : Ex) (as : List (Option Nat)) : Ex × Ex × Ex × Bool :=
  let src : FpCtx := { c with f := g }
  let x := as.map fun l => l.map fun a => decodeF f32 (outCode c (exMul (inVal src a) k))
  let present := x.filterMap id
  let m' := present.foldl (fun acc v => if exIsNan acc || exIsNan v then .nan else if exBelow acc v then v else acc)
    (if exIsNan s then .nan else m)
  let r := sx c m m'
  let t := (treeSum (treeAdd c) 5 (x.map fun l => l.map fun v => sx c v m')).getD exZero
  let s' := if exIsNan m' then .nan else decodeF f32 (outCode c (exAdd (c.rm == 3) (exMul s r) t))
  (m', s', r, present.any fun v => v == .nan || v == .inf false)

/-- VMAXEXP (R161, R162). -/
def vmaxexpStep (ty : BitVec 2) (sh : BitVec 3) (t1 t0 : BitVec 8) (s : State) : State :=
  fireWith s true true true false 3 fun o s =>
    let c : FpCtx := { s.fpCtx ty with f := f32 }
    match laneOf o.b 32 0, laneOf o.b 32 1, laneOf o.p 32 0 with
    | some m, some q, some k =>
      let (m', s', r, nf) := vmaxexpVals c (tyFmt ty) (inVal c m) (inVal c q) (inVal c k) (lanesOf sh o.a)
      send2 (markNf s nf) t1 t0
        (mkTok 3 ([m', s', r].map (fun v => some (rndCode f32 0 v)) ++ List.replicate 13 (some 0)))
    | _, _, _ => send2 s t1 t0 (nullTok 3)

/-- FADD (R153). -/
def execFadd (ty pr : BitVec 2) (sh : BitVec 3) (t1 t0 : BitVec 8) (s : State) : Out :=
  .next (floatBin feAdd ty pr sh t1 t0 s)
/-- FSUB (R153). -/
def execFsub (ty pr : BitVec 2) (sh : BitVec 3) (t1 t0 : BitVec 8) (s : State) : Out :=
  .next (floatBin feSub ty pr sh t1 t0 s)
/-- FMUL (R153). -/
def execFmul (ty pr : BitVec 2) (sh : BitVec 3) (t1 t0 : BitVec 8) (s : State) : Out :=
  .next (floatBin feMul ty pr sh t1 t0 s)
/-- FDIV (R153). -/
def execFdiv (ty pr : BitVec 2) (sh : BitVec 3) (t1 t0 : BitVec 8) (s : State) : Out :=
  .next (floatBin feDiv ty pr sh t1 t0 s)
/-- FMIN (R153). -/
def execFmin (ty pr : BitVec 2) (sh : BitVec 3) (t1 t0 : BitVec 8) (s : State) : Out :=
  .next (floatBin feMin ty pr sh t1 t0 s)
/-- FMAX (R153). -/
def execFmax (ty pr : BitVec 2) (sh : BitVec 3) (t1 t0 : BitVec 8) (s : State) : Out :=
  .next (floatBin feMax ty pr sh t1 t0 s)
/-- FCPYS (R153). -/
def execFcpys (ty pr : BitVec 2) (sh : BitVec 3) (t1 t0 : BitVec 8) (s : State) : Out :=
  .next (floatBin feCpys ty pr sh t1 t0 s)
/-- FSCL (R153). -/
def execFscl (ty pr : BitVec 2) (sh : BitVec 3) (t1 t0 : BitVec 8) (s : State) : Out :=
  .next (floatBin feScl ty pr sh t1 t0 s)
/-- FSQRT (R154). -/
def execFsqrt (ty pr : BitVec 2) (sh : BitVec 3) (t1 t0 : BitVec 8) (s : State) : Out :=
  .next (floatUn feSqrt ty pr sh t1 t0 s)
/-- FRCP (R154). -/
def execFrcp (ty pr : BitVec 2) (sh : BitVec 3) (t1 t0 : BitVec 8) (s : State) : Out :=
  .next (floatUn feRcp ty pr sh t1 t0 s)
/-- FRSQ (R154). -/
def execFrsq (ty pr : BitVec 2) (sh : BitVec 3) (t1 t0 : BitVec 8) (s : State) : Out :=
  .next (floatUn feRsq ty pr sh t1 t0 s)
/-- FABS (R154). -/
def execFabs (ty pr : BitVec 2) (sh : BitVec 3) (t1 t0 : BitVec 8) (s : State) : Out :=
  .next (floatUn feAbs ty pr sh t1 t0 s)
/-- FNEG (R154). -/
def execFneg (ty pr : BitVec 2) (sh : BitVec 3) (t1 t0 : BitVec 8) (s : State) : Out :=
  .next (floatUn feNeg ty pr sh t1 t0 s)
/-- FEXP2 (R154). -/
def execFexp2 (ty pr : BitVec 2) (sh : BitVec 3) (t1 t0 : BitVec 8) (s : State) : Out :=
  .next (floatUn feExp2 ty pr sh t1 t0 s)
/-- FLOG2 (R154). -/
def execFlog2 (ty pr : BitVec 2) (sh : BitVec 3) (t1 t0 : BitVec 8) (s : State) : Out :=
  .next (floatUn feLog2 ty pr sh t1 t0 s)
/-- FCLASS (R157). -/
def execFclass (ty pr : BitVec 2) (sh : BitVec 3) (t1 t0 : BitVec 8) (s : State) : Out :=
  .next (floatUn feClass ty pr sh t1 t0 s)
/-- FEQ (R156). -/
def execFeq (ty pr : BitVec 2) (sh : BitVec 3) (t1 t0 : BitVec 8) (s : State) : Out :=
  .next (floatTest feEq ty pr sh t1 t0 s)
/-- FLT (R156). -/
def execFlt (ty pr : BitVec 2) (sh : BitVec 3) (t1 t0 : BitVec 8) (s : State) : Out :=
  .next (floatTest feLt ty pr sh t1 t0 s)
/-- FLE (R156). -/
def execFle (ty pr : BitVec 2) (sh : BitVec 3) (t1 t0 : BitVec 8) (s : State) : Out :=
  .next (floatTest feLe ty pr sh t1 t0 s)
/-- FUN (R156). -/
def execFun (ty pr : BitVec 2) (sh : BitVec 3) (t1 t0 : BitVec 8) (s : State) : Out :=
  .next (floatTest feUn ty pr sh t1 t0 s)
/-- FREDADD (R159). -/
def execFredadd (ty pr : BitVec 2) (sh : BitVec 3) (t1 t0 : BitVec 8) (s : State) : Out :=
  .next (fredaddStep ty pr sh t1 t0 s)
/-- FDOT (R160). -/
def execFdot (ty pr : BitVec 2) (sh : BitVec 3) (t1 t0 : BitVec 8) (s : State) : Out :=
  .next (fdotStep ty pr sh t1 t0 s)
/-- NFCHK (R158). -/
def execNfchk (ty pr : BitVec 2) (sh : BitVec 3) (t1 t0 : BitVec 8) (s : State) : Out :=
  .next (nfchkStep ty pr sh t1 t0 s)
/-- FFMA (R155). -/
def execFfma (ty : BitVec 2) (sh : BitVec 3) (t1 t0 : BitVec 8) (s : State) : Out :=
  .next (floatTern exFma ty sh t1 t0 s)
/-- FFMS (R155). -/
def execFfms (ty : BitVec 2) (sh : BitVec 3) (t1 t0 : BitVec 8) (s : State) : Out :=
  .next (floatTern exFms ty sh t1 t0 s)
/-- FNFMA (R155). -/
def execFnfma (ty : BitVec 2) (sh : BitVec 3) (t1 t0 : BitVec 8) (s : State) : Out :=
  .next (floatTern exFnma ty sh t1 t0 s)
/-- VMAXEXP (R162). -/
def execVmaxexp (ty : BitVec 2) (sh : BitVec 3) (t1 t0 : BitVec 8) (s : State) : Out :=
  .next (vmaxexpStep ty sh t1 t0 s)

end Sys2Proof.Machine
end

