-- ==== Sys2Proof/Machine/Exits.lean ====
section
/-! DEFINITION. The exits (R109-R111, R339, R390) and the forms of major 0x7D that are held until commit (R388-R394,
R273): what each does when it fires. What they do at commit is in Block.lean. -/

namespace Sys2Proof.Machine

/-- Body index of the firing in progress, as a TVAL. -/
def State.idxTval (s : State) : Word := .ofNat 64 s.cur.2.2

/-- An exit fires: the first fixes the target, a second is MULTI_EXIT (R44, R110). -/
def setExit (s : State) (kind : ExitKind) (target : Word) : State :=
  match s.curBlock with
  | none => s
  | some b =>
    match b.exit with
    | some _ => faultHere s 3 s.idxTval none
    | none => s.onBlock s.cur.1 s.cur.2.1 fun b => { b with exit := some ⟨s.cur.2.2, kind, target⟩ }

/-- The strand is in a message handler (R335). -/
def State.inHandler (s : State) : Bool := (s.strand s.cur.1 s.cur.2.1).hnd

/-- Address of the block after one whose body has `n` words (R110): 64 × (1 + n / 16, rounded up). -/
def blockEnd (a : Word) (n : Nat) : Word := a + .ofNat 64 (64 * (1 + (n + 15) / 16))

/-- Body length of the block in the window. -/
def State.bodyLen (s : State) : Nat := match s.curBlock with | some b => b.slots.length | none => 0

def brStep (pr : BitVec 2) (off : BitVec 18) (s : State) : State :=
  fire0 s pr fun _ s => setExit s .br (blockRel s.blockAddr off.toInt)

/-- BRI's target; a null byte reads as 0xFF in TVAL (R110). -/
def briTarget (t : Token) : Word := .ofNat 64 (packLanes 8 ((tokBytes t 8).map fun b => some ((b.getD 0xFF).toNat)))

/-- BRI (R110). A bad target is MISALIGNED, also where this is the block's second exit (R44; log 72, DESIGN CHOICE). -/
def briStep (pr : BitVec 2) (s : State) : State :=
  fireA s pr fun o s =>
    let t := briTarget o.a
    if anyNull o.a 0 8 || bits t 0 6 != 0 then faultHere s 9 t none else setExit s .bri t

def scallStep (pr : BitVec 2) (n : BitVec 18) (s : State) : State :=
  fire0 s pr fun _ s => setExit s (.scall n) (blockEnd s.blockAddr s.bodyLen)

def haltStep (pr : BitVec 2) (s : State) : State :=
  fire0 s pr fun _ s => if s.inHandler then faultHere s 2 s.idxTval none else setExit s .halt s.blockAddr

def yieldStep (pr : BitVec 2) (off : BitVec 18) (s : State) : State :=
  fire0 s pr fun _ s => setExit s .yield (blockRel s.blockAddr off.toInt)

/-- HRET's target is known at commit (R339). -/
def hretStep (pr : BitVec 2) (s : State) : State :=
  fire0 s pr fun _ s => if s.inHandler then setExit s .hret s.blockAddr else faultHere s 2 s.idxTval none

/-- TRET's target is known at commit (R390). -/
def tretStep (pr : BitVec 2) (s : State) : State :=
  fire0 s pr fun _ s => if s.user then faultHere s 0x12 s.idxTval none else setExit s .tret s.blockAddr

/-- BR (R110). -/
def execBr (pr : BitVec 2) (_e : BitVec 3) (off : BitVec 18) (s : State) : Out := .next (brStep pr off s)
/-- BRI (R110). -/
def execBri (pr : BitVec 2) (_e : BitVec 3) (s : State) : Out := .next (briStep pr s)
/-- SCALL (R110, R111). -/
def execScall (pr : BitVec 2) (_e : BitVec 3) (n : BitVec 18) (s : State) : Out := .next (scallStep pr n s)
/-- HALT (R110, R339). -/
def execHalt (pr : BitVec 2) (_e : BitVec 3) (s : State) : Out := .next (haltStep pr s)
/-- YIELD (R110). -/
def execYield (pr : BitVec 2) (_e : BitVec 3) (off : BitVec 18) (s : State) : Out := .next (yieldStep pr off s)
/-- HRET (R339). -/
def execHret (pr : BitVec 2) (_e : BitVec 3) (s : State) : Out := .next (hretStep pr s)
/-- TRET (R390). -/
def execTret (pr : BitVec 2) (_e : BitVec 3) (s : State) : Out := .next (tretStep pr s)

/-! ## Forms of major 0x7D -/

/-- What a form does at the commit of its block. -/
def holdForm (s : State) (f : Form) : State :=
  s.onBlock s.cur.1 s.cur.2.1 fun b => { b with forms := b.forms ++ [(s.cur.2.2, f)] }

def trapStep (pr : BitVec 2) (arg : BitVec 32) (s : State) : State :=
  fire0 s pr fun _ s => if s.user then faultHere s 0x12 s.idxTval none else holdForm s (.trap (arg.truncate 16))
def wfiStep (pr : BitVec 2) (arg : BitVec 32) (s : State) : State := fire0 s pr fun _ s => holdForm s (.wfi arg)
def alignStep (pr : BitVec 2) (s : State) : State := fire0 s pr fun _ s => holdForm s .align
def dbgbrkStep (pr : BitVec 2) (arg : BitVec 32) (s : State) : State :=
  fire0 s pr fun _ s => holdForm s (.dbgbrk (arg.truncate 16))

/-- The first lane of TLBINV's operand that breaks its layout (R394). -/
def tlbinvBad (t : Token) : Option Nat :=
  if bits (v64 t 0) 17 47 != 0 then some 0
  else if bits (v64 t 1) 0 21 != 0 || bits (v64 t 1) 48 16 != 0 then some 1
  else if bits (v64 t 2) 0 21 != 0 then some 2
  else if bits (v64 t 3) 0 4 == 0 || bits (v64 t 3) 6 58 != 0 then some 3
  else none

def tlbinvStep (pr : BitVec 2) (s : State) : State :=
  fireA s pr fun o s =>
    if s.user then faultHere s 0x12 s.idxTval none
    else if anyNull o.a 0 40 then s
    else match tlbinvBad o.a with
      | some l => faultHere s 8 (v64 o.a l) none
      | none => holdForm s (.tlbinv o.a)

/-- A die's HBM range holds this physical address (R174): 144 GiB at d × 2^38. -/
def inHbm (pa : Nat) : Bool := pa < 2^40 && pa % 2^38 < 144 * 2^30

/-- Lane 0 or 3 of PMIG's operand breaks its table (R273). -/
def pmigBad (sysnum : BitVec 7) (t : Token) : Bool :=
  let g := v64 t 0
  (bits g 56 8 != 0x7F && bits g 56 8 != sysnum.toNat) || bits g 48 6 != 0 || bits g 0 21 != 0 || bits (v64 t 3) 16 48 != 0

def pmigStep (pr : BitVec 2) (s : State) : State :=
  fireA s pr fun o s =>
    if s.user then faultHere s 0x12 0 none
    else if anyNull o.a 0 32 then s
    else if pmigBad s.sysnum o.a then faultHere s 8 (v64 o.a 0) none
    else if !inHbm (v64 o.a 1).toNat || bits (v64 o.a 1) 0 21 != 0 then faultHere s 8 (v64 o.a 1) none
    else holdForm s (.pmig o.a)

/-- TRAP (R388, R389). -/
def execTrap (pr : BitVec 2) (arg : BitVec 32) (s : State) : Out := .next (trapStep pr arg s)
/-- WFI (R391). -/
def execWfi (pr : BitVec 2) (arg : BitVec 32) (s : State) : Out := .next (wfiStep pr arg s)
/-- ALIGN (R392). -/
def execAlign (pr : BitVec 2) (_arg : BitVec 32) (s : State) : Out := .next (alignStep pr s)
/-- DBGBRK (R393). -/
def execDbgbrk (pr : BitVec 2) (arg : BitVec 32) (s : State) : Out := .next (dbgbrkStep pr arg s)
/-- TLBINV (R394). -/
def execTlbinv (pr : BitVec 2) (_arg : BitVec 32) (s : State) : Out := .next (tlbinvStep pr s)
/-- PMIG (R273). -/
def execPmig (pr : BitVec 2) (_arg : BitVec 32) (s : State) : Out := .next (pmigStep pr s)

end Sys2Proof.Machine
end

