-- ==== Sys2Proof/Machine/Translate.lean ====
section
/-! DEFINITION. Global addresses (R173), the tables and their walk (R266-R269), the TLB (R271) and which frame an
access to a migrating page reaches (R275). -/

namespace Sys2Proof.Machine

/-! ## Errors found -/

/-- A WARN for a die: pending on strand 0 of its core d.00.00.0; one already pending keeps its identity (R408). -/
def warn (s : State) (kind idx die : Nat) : State :=
  let c := die * 2048
  if (s.strand c 0).warn.isSome then s.count 11
  else s.onStrand c 0 fun d => { d with warn := some (.ofNat 64 (kind * 2^28 + idx)) }

/-- A 16-bit count one higher, saturating (R407). -/
def satInc (x : BitVec 16) : BitVec 16 := if x == BitVec.allOnes 16 then x else x + 1

/-- WARN threshold of a kind (R407). -/
def State.threshold (s : State) (kind : Nat) : Nat := (aget s.thresholds kind 64).toNat

/-- An uncorrectable error is found in a slice: UE, and a WARN crossing where it rises (R407). -/
def sliceUe (s : State) (k : Nat) : State :=
  let rise := (s.slice k).ue != BitVec.allOnes 16
  let s := s.onSlice k fun x => { x with ue := satInc x.ue }
  if rise then warn s 1 k (k / 64) else s

/-- A corrected error in a slice (R407). -/
def sliceCe (s : State) (k : Nat) : State :=
  let rise := (s.slice k).ce != BitVec.allOnes 16
  let s := s.onSlice k fun x => { x with ce := satInc x.ce }
  if rise && (s.slice k).ce.toNat % (s.threshold 1) == 0 then warn s 1 k (k / 64) else s

/-- Count of an error source of kind 2 HBM channel, 3 link lane or 4 UCIe joint: CE in the low half, UE in the high
one (R407). -/
def srcUe (s : State) (kind idx die : Nat) : State :=
  let x := aget s.errs (kind * 2^16 + idx) 0
  let ue : BitVec 16 := x.extractLsb' 16 16
  let s := { s with errs := aput s.errs (kind * 2^16 + idx) (satInc ue ++ (x.truncate 16 : BitVec 16)) }
  if ue != BitVec.allOnes 16 then warn s kind idx die else s
def srcCe (s : State) (kind idx die : Nat) : State :=
  let x := aget s.errs (kind * 2^16 + idx) 0
  let ce := satInc (x.truncate 16)
  let rise := ce != (x.truncate 16 : BitVec 16)
  let s := { s with errs := aput s.errs (kind * 2^16 + idx) ((x.extractLsb' 16 16 : BitVec 16) ++ ce) }
  if rise && ce.toNat % (s.threshold kind) == 0 then warn s kind idx die else s

/-- The die that a joint's errors are reported on: the lower numbered of the two it joins (R17, R407). The spec numbers no joint;
0 and 1 are those of die 0, 2 joins dies 1 and 3, 3 joins dies 2 and 3 (log 25, DESIGN CHOICE). -/
def jointDie (j : Nat) : Nat := match j with | 0 => 0 | 1 => 0 | 2 => 1 | _ => 2

/-- An uncorrectable error is found in data of die `die` homed at slice `k`: in the slice's ways, or, where it lay in HBM,
in a channel of the die (R188, R407); which is free. -/
def dataUe (s : State) (k : Nat) : State :=
  let (inSlice, s) := s.drawBit
  if inSlice then sliceUe s k
  else
    let (ch, s) := s.drawBelow 128
    srcUe s 2 (k / 64 * 128 + ch) (k / 64)

/-! ## Global addresses -/

def nodeOf (g : Word) : Nat := bits g 56 8
def dieOf (g : Word) : Nat := bits g 54 2
def vaOf (g : Word) : Nat := bits g 0 48

/-- This device's own number is read as 0x7F (R173). -/
def State.norm (s : State) (g : Word) : Word :=
  if nodeOf g == s.sysnum.toNat then (g &&& 0x00FFFFFFFFFFFFFF) ||| 0x7F00000000000000 else g

/-- The fields of R173 hold legal values. -/
def fieldsOk (g : Word) : Bool :=
  (nodeOf g < 0x80 || nodeOf g == 0xFF) && (nodeOf g != 0xFF || dieOf g == 0) && bits g 48 6 == 0

/-- A normalised address names another device. -/
def isRemote (g : Word) : Bool := nodeOf g < 0x7F

/-- The port to a node, unless none reaches it: ROUTE names it and it is not DOWN (R342). -/
def State.portTo (s : State) (node : Nat) : Option Nat :=
  let p := aget s.routes node 15
  if p < 12 && (s.port p).st != .down then some p else none

/-- Step 2 of R208 for a normalised global address, with the reach of R344. -/
def addrOk (s : State) (g : Word) : Bool := fieldsOk g && (!isRemote g || (s.portTo (nodeOf g)).isSome)

/-! ## Physical addresses -/

/-- Die-local slice of a physical address (R270). -/
def sliceLocal (pa : Nat) : Nat :=
  let f (lo len : Nat) : Nat := pa / 2^lo % 2^len
  f 7 6 ^^^ f 18 6 ^^^ f 24 6 ^^^ f 30 6 ^^^ f 36 2
/-- Module slice of a physical address (R23, R270). -/
def sliceOf (pa : Nat) : Nat := pa / 2^38 % 4 * 64 + sliceLocal pa

/-- The record that has moved the line of a byte away from its home (R275). -/
def movedBy (s : State) (pa : Nat) : Option Migration :=
  s.migs.find? fun m => m.old ≤ pa && pa < m.old + (if m.big then 2^25 else 2^21) && pa - m.old < m.cursor

/-- A byte is forwarded from home to home, by as many records as there are (R275, step 3). -/
def fwdFrom (s : State) : Nat → Nat → Nat
  | 0, pa => pa
  | n + 1, pa => match movedBy s pa with
    | some m => fwdFrom s n (m.new + (pa - m.old))
    | none => pa
def fwd (s : State) (pa : Nat) : Nat := fwdFrom s s.migs.length pa

/-- A line holds a poison mark (R189). -/
def poisoned (s : State) (pa : Nat) : Bool := s.poison.contains (fwd s pa / 128)

/-- First physical address of a granule of a die's tile pool (R235). -/
def poolAddr (die at_ : Nat) : Nat := die * 2^38 + 2^37 + 128 * at_

/-- The version whose storage in the tile pool holds a byte, with its slice and the first byte of the storage (R188, R235). -/
def poolVer (s : State) (pa : Nat) : Option (Nat × Ver × Nat) :=
  if pa % 2^38 < 2^37 then none
  else s.slices.findSome? fun (k, sl) =>
    (sl.vers.find? fun e =>
      let a := poolAddr (k / 64) e.at_
      e.hbm && e.grans != 0 && a ≤ pa && pa < a + 128 * e.grans).map fun e => (k, e, poolAddr (k / 64) e.at_)

/-- Bytes at a home, all in one line. -/
def physRead (s : State) (pa n : Nat) : List Byte :=
  match poolVer s (fwd s pa) with
  | some (_, e, a) => memBytes e.bytes (fwd s pa - a) n
  | none => memBytes s.mem (fwd s pa) n

/-- The cache ways of a slice that may take a line: not tile ways and not being drained (R184, R185). -/
def cacheWays (k : Slice) : BitVec 16 := ~~~k.tile &&& ~~~k.flush

/-- Some way of the slice may hold a line. -/
def mayHold (k : Slice) : Bool := (k.maybe &&& ~~~k.tile) != 0

/-- A cache way of its slice may hold a line (R183). -/
def mayBeHeld (s : State) (line : Nat) : Bool := s.undo.any fun e => e.1 == line

/-- A line comes into its slice's cache ways, where one takes lines: any of them may hold it (R184, R185). -/
def mayCache (s : State) (pa : Nat) : State :=
  let ways := cacheWays (s.slice (sliceOf pa))
  if ways == 0 then s
  else
    let s := s.onSlice (sliceOf pa) fun k => { k with maybe := k.maybe ||| ways }
    if mayBeHeld s (pa / 128) then s else { s with undo := aput s.undo (pa / 128) [] }

/-- The previous values of the bytes a write replaces. -/
def oldBytes (m : Mem) (a : Nat) : List (Option Byte) → Mem
  | [] => []
  | none :: d => oldBytes m (a + 1) d
  | some _ :: d => (a, memRead m a) :: oldBytes m (a + 1) d

/-- The other lines of a line's set in its slice (PA[17:7], R183) that may wait to be written back. -/
def setDirty (s : State) (line : Nat) : List Nat :=
  (((s.undo.filter fun e => !e.2.isEmpty).map (·.1)).filter fun l =>
    l != line && l % 2048 == line % 2048 && sliceOf (128 * l) == sliceOf (128 * line))

/-- A line is written in a cache way: where its set has no room for one more such line, another is written back first; which,
is free (R183). -/
def makeRoom (s : State) (line : Nat) : State :=
  let others := setDirty s line
  let ways := ((List.range 16).filter fun w => !(s.slice (sliceOf (128 * line))).tile.getLsbD w).length
  if others.length < ways then s
  else
    let (v, s) := s.drawBelow others.length
    { s with undo := adel s.undo (others.getD v line) }

/-- What a write to a line replaces is kept, with the line's poison mark: a later discard may find it not written back
(R187). Where no way holds the line and none takes it, the write goes to HBM (R185). -/
def logWrite (s : State) (line : Nat) (old : Mem) : State :=
  if !mayBeHeld s line then s
  else
    let s := makeRoom s line
    { s with undo := aput s.undo line ((old, s.poison.contains line) :: aget s.undo line []) }

/-- Releases of bytes that are written again are no longer what a read of them returns (R200). -/
def dropRels (rels : AMap (List (Nat × Nat))) (a : Nat) (d : List (Option Byte)) : AMap (List (Nat × Nat)) :=
  rels.filter fun e => !(a ≤ e.1 && e.1 < a + d.length && ((d[e.1 - a]?).join).isSome)

/-- A write performed at a home, all in one line (R186). A write of the whole line clears its poison mark (R189). -/
def physWrite (s : State) (pa : Nat) (d : List (Option Byte)) : State :=
  let pa := fwd s pa
  let line := pa / 128
  let whole := pa % 128 == 0 && d.length == 128 && d.all Option.isSome
  let put (s : State) : State :=
    { s with rels := dropRels s.rels pa d, poison := if whole then s.poison.filter (· != line) else s.poison }
  match poolVer s pa with
  | some (k, e, a) => put (s.onSlice k fun sl =>
      { sl with vers := sl.vers.map fun x => if x == e then { x with bytes := memPutAll x.bytes (pa - a) d } else x })
  | none =>
    let s := logWrite (mayCache s pa) line (oldBytes s.mem pa d)
    put { s with mem := memPutAll s.mem pa d }

/-- An 8-byte entry of a table in memory. -/
def physWord (s : State) (pa : Nat) : Word := .ofNat 64 (leNat (physRead s pa 8))

/-! ## Leaves and the walk -/

/-- The leaf in a table entry at level 2 (`big`) or 3; none where a check of R269 fails. -/
def leafOf (big : Bool) (e : Word) : Option Leaf :=
  let frame := bits e 21 30 * 2^21
  let attr : BitVec 2 := .ofNat 2 (bits e 5 2)
  let host := e.getLsbD 8
  if !e.getLsbD 0 || !e.getLsbD 1 || bits e 9 12 != 0 || attr == 3 || (big && bits e 21 4 != 0) ||
      (attr != 2 && bits e 51 13 != 0) || (!host && !inHbm frame) then none
  else some
    { frame := frame, big := big, w := e.getLsbD 2, x := e.getLsbD 3, u := e.getLsbD 4, attr := attr
      disc := e.getLsbD 7, host := host, owner := bits e 51 13 }

/-- The next table in a pointer entry, `align` bytes aligned and in a die's HBM (R268, R269). -/
def pointerOf (align : Nat) (e : Word) : Option Nat :=
  let next := bits e 7 44 * 128
  if e.getLsbD 0 && !e.getLsbD 1 && bits e 2 5 == 0 && bits e 51 13 == 0 && next % align == 0 && inHbm next then some next
  else none

/-- The root in a directory entry (R267). -/
def rootOf (e : Word) : Option Nat :=
  let root := bits e 15 36 * 2^15
  if e.getLsbD 0 && bits e 1 14 == 0 && bits e 51 13 == 0 && inHbm root then some root else none

/-- Why a walk fails: PAGE_FAULT (R269), or a poisoned entry, which returns no data (R189, log 13, DEDUCED). -/
def entryAt (s : State) (pa : Nat) : Except Nat Word := if poisoned s pa then .error 0x17 else .ok (physWord s pa)

def orFault {α : Type} : Option α → Except Nat α
  | some a => .ok a
  | none => .error 7

/-- The walk of die `die`'s tables for an ASID (R266-R269): the leaf, or the cause. -/
def walk (s : State) (die : Nat) (asid : BitVec 16) (va : Nat) : Except Nat Leaf := do
  let root ← orFault (rootOf (← entryAt s (die * 2^38 + 8 * asid.toNat)))
  let e1 ← entryAt s (root + 8 * (va / 2^36 % 4096))
  let t2 ← orFault (pointerOf 16384 e1)
  let e2 ← entryAt s (t2 + 8 * (va / 2^25 % 2048))
  if e2.getLsbD 1 then orFault (leafOf true e2)
  else
    let t3 ← orFault (pointerOf 128 e2)
    let e3 ← entryAt s (t3 + 8 * (va / 2^21 % 16))
    orFault (leafOf false e3)

/-- The table entries that a walk reads, in order. -/
def walkReads (s : State) (die : Nat) (asid : BitVec 16) (va : Nat) : List Nat :=
  let next {α : Type} (pa : Nat) (f : Word → Option α) (k : α → List Nat) : List Nat :=
    pa :: match entryAt s pa with
      | .ok e => (match f e with | some x => k x | none => [])
      | .error _ => []
  next (die * 2^38 + 8 * asid.toNat) rootOf fun root =>
    next (root + 8 * (va / 2^36 % 4096)) (pointerOf 16384) fun t2 =>
      next (t2 + 8 * (va / 2^25 % 2048)) (fun e => if e.getLsbD 1 then none else pointerOf 128 e) fun t3 =>
        [t3 + 8 * (va / 2^21 % 16)]

/-- The state after a walk: each entry is read at its home as an HC line, and one that is in error is counted (R269, R189,
R407). -/
def walked (s : State) (die : Nat) (asid : BitVec 16) (va : Nat) : State :=
  (walkReads s die asid va).foldl (fun s pa => if poisoned s pa then dataUe s (sliceOf (fwd s pa)) else mayCache s (fwd s pa)) s

/-- First byte of the page that a leaf maps. -/
def pageBase (leaf : Leaf) (va : Nat) : Nat := if leaf.big then va / 2^25 * 2^25 else va / 2^21 * 2^21
/-- The physical address under a leaf (R266). -/
def leafPa (leaf : Leaf) (va : Nat) : Nat := leaf.frame + (va - pageBase leaf va)

/-- The physical address of an access: of a MIGRATING page, in the new frame where the cursor has passed its line (R275, step
2). -/
def accessPa (s : State) (g : Word) (asid : BitVec 16) (leaf : Leaf) : Nat :=
  let off := vaOf g - pageBase leaf (vaOf g)
  match s.migs.find? fun m => m.die == dieOf g && m.asid == asid && m.va == pageBase leaf (vaOf g) with
  | some m => if !leaf.host && off < m.cursor then m.new + off else leafPa leaf (vaOf g)
  | none => leafPa leaf (vaOf g)

/-- The checks of R269 on a leaf that was found: PROTECTION. `core`: none for an engine, link, host or peer (R182). -/
def leafBad (g : Word) (leaf : Leaf) (user wr fetch : Bool) (core : Option Nat) : Bool :=
  leaf.host != (nodeOf g == 0xFF) || (user && !leaf.u) || (wr && !leaf.w) || (fetch && !leaf.x) ||
    (leaf.attr == 2 && core != some leaf.owner)

/-- A TLB entry for the page (R271). -/
def tlbFind (s : State) (g : Word) (asid : BitVec 16) : Option Leaf :=
  (s.tlb.find? fun e => e.die == dieOf g && e.asid == asid && pageBase e.leaf (vaOf g) == e.va).map (·.leaf)

/-- The TLB as an access finds it: an entry may have been replaced at any time (R271). -/
def tlbLook (s : State) (g : Word) (asid : BitVec 16) : Option Leaf × State :=
  match tlbFind s g asid with
  | none => (none, s)
  | some leaf =>
    let (kept, s) := s.drawBit
    (if kept then some leaf else none, s)

/-- The translator of an access in its die (R271). -/
def translatorOf (asid : BitVec 16) (va : Nat) : Nat := (va / 2^25 % 16) ^^^ (asid.toNat % 16)

/-- A walk's leaf enters the TLB; a translator holds 1,024 (R271), and which entry makes room is free. -/
def tlbInsert (s : State) (g : Word) (asid : BitVec 16) (leaf : Leaf) : State :=
  let e : TlbE := ⟨dieOf g, asid, pageBase leaf (vaOf g), leaf⟩
  let same (x : TlbE) : Bool := x.die == e.die && translatorOf x.asid x.va == translatorOf e.asid e.va
  let rest := s.tlb.filter fun x => !(x.die == e.die && x.asid == e.asid && x.va == e.va)
  if (rest.filter same).length < 1024 then { s with tlb := e :: rest }
  else
    let (v, s) := s.drawBelow 1024
    let victim := (rest.filter same)[v]?
    { s with tlb := e :: rest.filter fun x => some x != victim }

/-- A translation in one step, by TLB or walk, of an access that no strand waits for (engine, link, fetch, host):
leaf and physical address, or the cause. -/
def xlate (s : State) (g : Word) (asid : BitVec 16) (user wr fetch : Bool) (core : Option Nat) :
    Except Nat (Leaf × Nat) × State :=
  let g := s.norm g
  let (hit, s) := tlbLook s g asid
  let found : Except Nat Leaf := match hit with
    | some leaf => .ok leaf
    | none => walk s (dieOf g) asid (vaOf g)
  let s := if hit.isNone then walked s (dieOf g) asid (vaOf g) else s
  match found with
  | .error c => (.error c, s)
  | .ok leaf =>
    let s := if hit.isNone then tlbInsert s g asid leaf else s
    if leafBad g leaf user wr fetch core then (.error 8, s) else (.ok (leaf, accessPa s g asid leaf), s)

end Sys2Proof.Machine
end

