-- ==== Sys2Proof/Machine/Forms.lean ====
section
/-! DEFINITION. What a body word uses, read from its fields: operand slots (R75, R83), LSID (R47, R76), held and
returning forms (R47), and whether its slot is ready or can never fire (R41, R43). -/

namespace Sys2Proof.Machine

/-- Bits of an instruction word (R7). -/
def wf (w : Word32) (lo len : Nat) : Nat := w.toNat / 2^lo % 2^len
def majorOf (w : Word32) : Nat := wf w 25 7
def prOf (w : Word32) : BitVec 2 := .ofNat 2 (wf w 23 2)

/-- X-format majors (R67, R75). -/
def isX (w : Word32) : Bool :=
  majorOf w == 0x70 || majorOf w == 0x71 || majorOf w == 0x74 || majorOf w == 0x76 || majorOf w == 0x79 ||
  majorOf w == 0x7A || majorOf w == 0x7D
/-- Exits (B format): majors 1-5 (R65). -/
def isExit (w : Word32) : Bool := 1 ≤ majorOf w && majorOf w ≤ 5

/-- The form carries an LSID (R47, R76). -/
def hasLsid (w : Word32) : Bool :=
  let m := majorOf w
  m == 0x60 || m == 0x61 || (0x68 ≤ m && m ≤ 0x6D) || m == 0x70 || m == 0x71 || m == 0x74 || m == 0x76 || m == 0x78 ||
  m == 0x79 || m == 0x7A
def lsidOf (w : Word32) : Nat := wf w 18 5

/-- Operand slots A and B of a form (R74, R75, R80, R83). -/
def useA (w : Word32) : Bool :=
  let m := majorOf w
  let fn := wf w 13 5
  if m < 6 then m == 1 && wf w 18 2 == 2
  else if m == 6 || m == 7 || m == 0xA || m == 0x35 || m == 0x7B then false
  else if m == 0x6D then wf w 12 3 == 3 || wf w 12 3 == 4
  else if m == 0x74 then fn == 1 || fn == 3 || fn == 5
  else if m == 0x78 then wf w 15 3 == 2 || wf w 15 3 == 3
  else if m == 0x7A then fn ≤ 3
  else if m == 0x7D then fn == 4 || fn == 5
  else true
def useB (w : Word32) : Bool :=
  let m := majorOf w
  let fn := wf w 13 5
  m == 0xB || m == 0x10 || m == 0x11 || (0x15 ≤ m && m ≤ 0x17) || m == 0x30 || m == 0x33 ||
  (0x40 ≤ m && m ≤ 0x4B && m % 4 != 1) || (m == 0x5B && wf w 16 4 == 7) || m == 0x61 || (0x68 ≤ m && m ≤ 0x6C) ||
  (m == 0x6D && (wf w 12 3 == 3 || wf w 12 3 == 4)) ||
  ((m == 0x70 || m == 0x71) && (fn ≤ 2 || (8 ≤ fn && fn ≤ 10))) || (m == 0x76 && fn ≤ 3) ||
  (m == 0x78 && wf w 15 3 == 3) || m == 0x79 || (m == 0x7A && fn == 0)
/-- The third slot is operand C (R82). -/
def useC (w : Word32) : Bool := 0x43 ≤ majorOf w && majorOf w ≤ 0x4B && majorOf w % 4 == 3
/-- SEL reads its third slot as a selector (R117). -/
def isSel (w : Word32) : Bool := majorOf w == 0xB

/-- Held effects among the forms that carry an LSID (R47, R76). -/
def isHeld (w : Word32) : Bool :=
  let m := majorOf w
  let fn := wf w 13 5
  let cfn := wf w 15 3
  if m == 0x60 then wf w 12 3 == 3
  else if m == 0x61 || (0x6A ≤ m && m ≤ 0x6D) then true
  else if m == 0x70 || m == 0x71 then !(fn == 1 && !w.getLsbD 11) && fn != 4 && fn != 5
  else if m == 0x74 || m == 0x76 || m == 0x79 then true
  else if m == 0x78 then cfn == 2 || cfn == 3
  else if m == 0x7A then fn != 0 && fn != 3
  else false
/-- Returning atomics. -/
def isRetAtomic (w : Word32) : Bool := majorOf w == 0x68 || majorOf w == 0x69
/-- Forms that define no lanes: PR 01 on them is ILLEGAL_BLOCK (R36). -/
def noLanes (w : Word32) : Bool :=
  let m := majorOf w
  isExit w || m == 0x61 || (0x6A ≤ m && m ≤ 0x6D) || (m == 0x60 && wf w 12 3 == 4) || isX w || m == 0x78 || m == 0x7B ||
  m == 0x7C
/-- A form without operand tokens fires at block start under PR 00 (R85). -/
def firesAtStart (w : Word32) : Bool := !useA w && prOf w == 0 && w != 0

/-- The slot's scalar predicate has arrived and does not match, or is null: it never fires (R41, R210). -/
def voidSlot (sl : Slot) : Bool :=
  2 ≤ (prOf sl.word).toNat && !useC sl.word && !isSel sl.word &&
    (match sl.p with | some p => !predMatches (prOf sl.word) p | none => false)

/-- The slot's instruction is ready (R43). -/
def readyAt (b : Block) (i : Nat) : Bool :=
  match b.slots[i]? with
  | none => false
  | some sl => sl.word != 0 &&
      (readyOps b i (useA sl.word) (useB sl.word) (useC sl.word) (isSel sl.word) (prOf sl.word)).isSome

/-- Index of each instruction's first word (R35, R67): fillers and second words are none. -/
def firstWords (body : List Word32) : List (Nat × Word32) := go body 0 false
where
  go : List Word32 → Nat → Bool → List (Nat × Word32)
    | [], _, _ => []
    | w :: ws, i, second =>
      if second then go ws (i + 1) false
      else if w == 0 then go ws (i + 1) false
      else (i, w) :: go ws (i + 1) (isX w)

/-- The block's instructions with their body indices: neither fillers nor second words. -/
def Block.instrs (b : Block) : List (Nat × Slot) :=
  (firstWords (b.slots.map (·.word))).filterMap fun (i, _) => (b.slots[i]?).map fun sl => (i, sl)

/-! ## Order of a block's loads (R48, R197, R199, R222) -/

/-- Acquires: LD.acq, LD.locacq, TLD, TWAIT, CHPOP and CHPEK (R199, R201, R203). -/
def acquires (w : Word32) : Bool :=
  let m := majorOf w
  (m == 0x60 && (wf w 12 3 == 1 || wf w 12 3 == 6)) || ((m == 0x70 || m == 0x71) && (wf w 13 5 == 1 || wf w 13 5 == 4)) ||
  (m == 0x78 && wf w 15 3 < 2)

/-- FENCE.acq and FENCE.ar, which later reads wait for (R199). -/
def fenceAcquires (w : Word32) : Bool := majorOf w == 0x6D && (wf w 12 3 == 0 || wf w 12 3 == 2)

/-- Loads, stores, atomics, acquires, fences and INV: what a later load of the block is ordered after (R48, R199,
R223). -/
def ordersLoads (w : Word32) : Bool :=
  let m := majorOf w
  (m == 0x60 && wf w 12 3 != 4) || m == 0x61 || (0x6A ≤ m && m ≤ 0x6D) || acquires w

/-- ST.loc, and the atomics, which may be on the Loft. -/
def storesLoft (w : Word32) : Bool :=
  (majorOf w == 0x61 && wf w 12 3 == 5) || (0x6A ≤ majorOf w && majorOf w ≤ 0x6C)

/-- What a later TLD or TWAIT of the block is ordered after: the bytes that it reads never change (R199,
R201). The bytes of a local version lie in the Loft, where the block's stores may change them (R48). -/
def ordersTiles (loc : Bool) (w : Word32) : Bool := acquires w || fenceAcquires w || (loc && storesLoft w)

/-- The global address of an effect on global memory that leaves as accesses to homes. -/
def effGlobal : Eff → Option Word
  | .store g false _ _ => some g
  | .amo g false _ _ _ _ => some g
  | .vamo g false _ _ _ => some g
  | .discard g => some g
  | _ => none

/-- Bytes of a SIZE code (R69). -/
def sizeBytes (size : BitVec 3) : Nat := if size == 4 then 64 else 2^size.toNat

/-- An address plus a scaled offset (R207). -/
def offAddr (a : Word) (off : Int) (z : Nat) : Word := a + BitVec.ofInt 64 (off * z)

/-- An entry of the store buffer that is an access to another device: it has no translation here. -/
def toDevice (e : SbEnt) : Bool := (effGlobal e.eff).isSome && e.tr.isEmpty

/-- An acquire or a fence whose scope may be SYSTEM: it orders accesses to other devices too (R204). A TLD or TWAIT has the scope
of its version's seal, which is known when it answers; that of a local version is CORE (R201). -/
def systemWide (w : Word32) : Bool :=
  let m := majorOf w
  if m == 0x60 then wf w 12 3 == 1 && wf w 8 4 == 5
  else if m == 0x6D then wf w 15 3 == 5
  else m == 0x70

/-- The LSID of the instruction at a body index. -/
def Block.lsidAt (b : Block) (i : Nat) : Nat := match b.slots[i]? with | some sl => lsidOf sl.word | none => 0

/-- Nothing else of the block can happen: no ready instruction that is not itself a load, and no operation outstanding. -/
def quietBlock (b : Block) : Bool :=
  b.outst.isEmpty && b.instrs.all fun (i, sl) =>
    !readyAt b i || majorOf sl.word == 0x60 || majorOf sl.word == 0x70 || majorOf sl.word == 0x71

/-- An outstanding load of the block is an access to another device. -/
def farOut (b : Block) (o : Outst) : Bool := b.loads.any fun l => l.idx == o.idx && !l.loc && isRemote l.g

/-- An outstanding operation of the block orders a read of LSID `k` after it: an acquire, for accesses to another device (`far`)
one of SYSTEM scope (R199, R204). -/
def ordersAfter (b : Block) (far : Bool) (k : Nat) (o : Outst) : Bool :=
  o.lsid < k && (match b.slots[o.idx]? with
    | some sl => acquires sl.word && (systemWide sl.word || !(far || farOut b o))
    | none => false)

/-- A load may be performed ahead of the acquire, and stands if that does not synchronise: an LD.acq, and for an access to
another device a TLD or TWAIT (R200, R201). -/
def goesAhead (b : Block) (far : Bool) (o : Outst) : Bool :=
  o.lax && (match b.slots[o.idx]? with | some sl => majorOf sl.word == 0x60 || far | none => false)

/-- The acquires that a load of LSID `k` is performed ahead of, by body index (R200). -/
def laxAhead (b : Block) (far : Bool) (k : Nat) : List Nat :=
  (b.outst.filter fun o => ordersAfter b far k o && goesAhead b far o).map (·.idx)

/-- The fences before LSID `k` allow a read of that LSID: one that has fired is met, and no FENCE.ar of an earlier commit of the
strand waits in the store buffer (R199, R222). -/
def fencesMet (s : State) (c t : Nat) (b : Block) (far : Bool) (k : Nat) : Bool :=
  let fences := b.instrs.filter fun (_, sl) =>
    sl.fired && lsidOf sl.word < k && fenceAcquires sl.word && (!far || systemWide sl.word)
  let reads := fences.any fun (_, f) => b.outst.any fun o => o.lsid < lsidOf f.word && (systemWide f.word || !farOut b o)
  let buffered := fences.any fun (_, f) => wf f.word 12 3 == 2 &&
    (s.core c).sb.any fun e => e.strand == t && (systemWide f.word || !toDevice e)
  let fenceAr := (s.core c).sb.any fun e => e.strand == t && match e.eff with
    | .fence 2 scope => !far || scope == 5
    | _ => false
  !reads && !buffered && !fenceAr

/-- What has fired before LSID `k` allows a read of that LSID: an acquire before it has returned (or, for a load that may be
performed again, `spec`, it goes ahead of it), and the fences are met (R199, R222). Accesses to another device (`far`) are ordered
at SYSTEM scope alone (R204). -/
def firedAllow (s : State) (c t : Nat) (b : Block) (spec far : Bool) (k : Nat) : Bool :=
  (b.outst.all fun o => !ordersAfter b far k o || (spec && goesAhead b far o)) && fencesMet s c t b far k

/-- Nothing of the block can fire any more: what has not fired never will (R43). -/
def spent (b : Block) : Bool := b.outst.isEmpty && b.instrs.all fun (i, _) => !readyAt b i

/-- A read with LSID `k` comes in its place: every operation of the block that it is ordered after (`orders`) has fired or
never will, and no load before it waits to be performed again (R48, R197, R199, R222). -/
def inPlace (s : State) (c t : Nat) (b : Block) (orders : Word32 → Bool) (spec far : Bool) (k : Nat) : Bool :=
  (b.instrs.all fun (_, sl) => !(hasLsid sl.word && lsidOf sl.word < k && orders sl.word) || sl.fired || voidSlot sl || spent b) &&
  (b.early.all fun e => (spec && e.on.isSome) || k ≤ b.lsidAt e.idx) && firedAllow s c t b spec far k

/-- A read may be performed ahead of its place: only when nothing else of the block can happen, since what it is ordered
after may wait for it (R48; log 7, DEDUCED). -/
def aheadOk (s : State) (c t : Nat) (b : Block) (far : Bool) (k : Nat) : Bool := quietBlock b && firedAllow s c t b false far k

/-- A load that was performed ahead of its place may be performed again: in its place, or, where a fault is in doubt and
nothing else can happen, as it is (R46, R48; log 7, DEDUCED). -/
def againOk (s : State) (c t : Nat) (b : Block) (far : Bool) (i : Nat) : Bool :=
  let k := b.lsidAt i
  (b.early.any fun e => e.idx == i && e.val.isSome && e.on.isNone) && (b.outst.all fun o => o.idx != i) &&
  (inPlace s c t b ordersLoads false far k ||
    (b.doubt.isSome && aheadOk s c t b far k && b.early.all fun e => k ≤ b.lsidAt e.idx))

/-- A load of LSID `k` may fire: in its place or ahead of it. -/
def mayLoad (s : State) (c t : Nat) (b : Block) (far : Bool) (k : Nat) : Bool :=
  inPlace s c t b ordersLoads true far k || aheadOk s c t b far k
/-- A TLD or TWAIT of LSID `k`, of a local version or not, may fire (R199, R201). -/
def mayRead (s : State) (c t : Nat) (b : Block) (loc : Bool) (k : Nat) : Bool :=
  inPlace s c t b (ordersTiles loc) false false k || aheadOk s c t b false k

/-- A pop or peek of LSID `k` may fire: the fences and the acquires before it are met. Which of two pops is first no one can tell,
as entries leave in the order of their channel (R199, R333). -/
def mayPop (s : State) (c t : Nat) (b : Block) (k : Nat) : Bool :=
  let other (w : Word32) : Bool := majorOf w != 0x78
  (b.instrs.all fun (_, sl) =>
    !(hasLsid sl.word && lsidOf sl.word < k && other sl.word && ordersTiles false sl.word) || sl.fired || voidSlot sl) &&
  (b.outst.all fun o => !ordersAfter b false k o || (match b.slots[o.idx]? with | some sl => !other sl.word | none => true)) &&
  fencesMet s c t b false k

/-- The load in a slot reads another device, by its address operand and its fields (R70, R207). -/
def readsFar (s : State) (b : Block) (i : Nat) : Bool :=
  match b.slots[i]? with
  | none => false
  | some sl =>
    let off : Int := if wf sl.word 12 3 == 1 then 0 else (BitVec.ofNat 4 (wf sl.word 8 4)).toInt
    majorOf sl.word == 0x60 && wf sl.word 12 3 < 4 && (match sl.a with
      | some a => !anyNull a 0 8 && isRemote (s.norm (offAddr (v64 a 0) off (sizeBytes (.ofNat 3 (wf sl.word 15 3)))))
      | none => false)

end Sys2Proof.Machine
end

