-- ==== Sys2Proof/Machine/Predecode.lean ====
section
/-! DEFINITION. Predecode of a block image (R36, R54, R60-R64, R86, R87): the first failure, with its cause and TVAL. -/

namespace Sys2Proof.Machine

/-- A failure of predecode: cause and TVAL. -/
abbrev PreFault := Nat × Nat

/-- The first of several checks that fails. -/
def firstOf {α : Type} (f : α → Option PreFault) : List α → Option PreFault
  | [] => none
  | x :: xs => match f x with | some r => some r | none => firstOf f xs

/-- Header word `i`. -/
def hw (hdr : List Word32) (i : Nat) : Word32 := hdr.getD i 0
/-- Read slot `k`: its 16 bits (R61). -/
def readSlot (hdr : List Word32) (k : Nat) : Nat := wf (hw hdr (2 + k / 2)) (16 * (k % 2)) 16
/-- Write slot `k`: its 8 bits (R61). -/
def writeSlot (hdr : List Word32) (k : Nat) : Nat := wf (hw hdr (10 + k / 4)) (8 * (k % 4)) 8

def rsValid (x : Nat) : Bool := x / 2^15 == 1
def rsClass (x : Nat) : Nat := x / 2^14 % 2
def rsReg (x : Nat) : Nat := x / 2^9 % 32
def rsTarget (x : Nat) : BitVec 8 := .ofNat 8 x
def wsValid (x : Nat) : Bool := x / 2^7 == 1
def wsClass (x : Nat) : Nat := x / 2^6 % 2
def wsReg (x : Nat) : Nat := x / 2 % 32

/-- Body length in words (R60). -/
def bodyWords (hdr : List Word32) : Nat := (wf (hw hdr 0) 25 3 + 1) * 8

/-! ## Header (R62, R86) -/

/-- Header word `i` fails its checks. -/
def headerBad (ev : Nat) (hdr : List Word32) (i : Nat) : Bool :=
  let w := hw hdr i
  let rs (x : Nat) : Bool := if rsValid x then x / 2^8 % 2 == 1 else x != 0
  let ws (x : Nat) : Bool := if wsValid x then x % 2 == 1 else x != 0
  if i = 0 then wf w 28 4 != 0xB || (ev == 1 && 3 < wf w 25 3) || wf w 0 24 != 0
  else if i = 1 then ev == 1 && wf w 16 16 != 0
  else if i < 10 then rs (readSlot hdr (2 * (i - 2))) || rs (readSlot hdr (2 * (i - 2) + 1))
  else if i < 14 then
    (i ≥ 12 && ev != 3 && w != 0) || (List.range 4).any fun j => ws (writeSlot hdr (4 * (i - 10) + j))
  else w != 0

def checkHeader (ev : Nat) (user : Bool) (hdr : List Word32) : Option PreFault :=
  if ev = 0 || 3 < ev then some (1, 0x100)
  else match firstOf (fun i => if headerBad ev hdr i then some (1, 0x100 + i) else none) (List.range 16) with
    | some r => some r
    | none => if user && (hw hdr 0).getLsbD 24 then some (0x12, 0) else none

/-! ## Body words -/

/-- A body word that is no instruction (R64-R83), or one outside the limits of its encoding version (R86). -/
def wordBad (ev : Nat) (body : List Word32) (i : Nat) (w : Word32) : Bool :=
  (ev == 1 && (isX w || (hasLsid w && 15 < lsidOf w) || (isExit w && 3 < wf w 20 3))) ||
  (match decode w (body.getD (i + 1) 0) with | some x => !x.wf | none => true)

/-- The X forms' second words are checked with their first; under EV 1 there are none. -/
def checkWords (ev : Nat) (body : List Word32) : Option PreFault :=
  firstOf (fun (i, w) => if wordBad ev body i w then some (2, i) else none) (firstWords body)

/-! ## Cross-checks (R36) -/

/-- The targets that a word names (R43, R65, R70-R75). -/
def targetsOf (w : Word32) : List (BitVec 8) :=
  let m := majorOf w
  let t0 : BitVec 8 := .ofNat 8 (wf w 0 8)
  if isExit w || m == 0x61 || (0x6A ≤ m && m ≤ 0x6D) then []
  else if m == 0x09 || m == 0x0B || (0x10 ≤ m && m ≤ 0x12) || (0x15 ≤ m && m ≤ 0x17) || m == 0x30 || m == 0x31 || m == 0x33 ||
      (0x40 ≤ m && m ≤ 0x4B) || m == 0x5B then [.ofNat 8 (wf w 8 8), t0]
  else [t0]

/-- What a cross-check looks at: the read slots that are valid, the write slots that are valid, the instructions. -/
structure Image where
  rs : List (Nat × Nat)
  ws : List (Nat × Nat)
  is : List (Nat × Word32)
  len : Nat
  smask : Word32
  deriving DecidableEq, Repr

def imageOf (hdr body : List Word32) : Image where
  rs := ((List.range 16).map fun k => (k, readSlot hdr k)).filter fun x => rsValid x.2
  ws := ((List.range 16).map fun k => (k, writeSlot hdr k)).filter fun x => wsValid x.2
  is := firstWords body
  len := body.length
  smask := hw hdr 1

/-- TVAL of a failure on read slot, write slot or body word. -/
def rsAt (k : Nat) : PreFault := (1, 0x102 + k / 2)
def wsAt (k : Nat) : PreFault := (1, 0x10A + k / 4)

/-- A check of every target: read slots, then body words. -/
def onTargets (m : Image) (bad : BitVec 8 → Bool) : Option PreFault :=
  match firstOf (fun (k, x) => if bad (rsTarget x) then some (rsAt k) else none) m.rs with
  | some r => some r
  | none => firstOf (fun (i, w) => if (targetsOf w).any bad then some (1, i) else none) m.is

def onWords (m : Image) (bad : Nat → Word32 → Bool) : Option PreFault :=
  firstOf (fun (i, w) => if bad i w then some (1, i) else none) m.is

/-- The instruction a target names. -/
def namedWord (m : Image) (t : BitVec 8) : Option Word32 := (m.is.find? fun x => x.1 == t.toNat % 64).map (·.2)

def isWrite (t : BitVec 8) : Bool := 0x20 ≤ t.toNat && t.toNat < 0x30

/-- Some target names write slot `k`. -/
def writeNamed (m : Image) (k : Nat) : Bool :=
  (m.rs.any fun x => (rsTarget x.2).toNat == 0x20 + k) || m.is.any fun x => (targetsOf x.2).any fun t => t.toNat == 0x20 + k

/-- An earlier entry of the list has the same key. -/
def repeated {α : Type} (key : Nat × α → Option Nat) (xs : List (Nat × α)) (x : Nat × α) : Bool :=
  (key x).isSome && xs.any fun y => y.1 < x.1 && key y == key x

/-- The irrevocable point (R36, R53): a further returning atomic, or an LSID above that of the first (log 57, DEDUCED). -/
def irrevBad (m : Image) (i : Nat) (w : Word32) : Bool :=
  (isRetAtomic w && m.is.any fun y => y.1 < i && isRetAtomic y.2) ||
  (hasLsid w && (m.is.find? fun y => isRetAtomic y.2).any fun y => lsidOf y.2 < lsidOf w)

/-- The cross-checks in the table's order. -/
def crossChecks (m : Image) : List (Option PreFault) :=
  let named (t : BitVec 8) : Bool := t.toNat / 64 != 0
  let slotValid (t : BitVec 8) : Bool := m.ws.any fun x => x.1 == t.toNat - 0x20
  [ onTargets m fun t => t.toNat / 64 == 0 && t != 0 && !isWrite t,
    onTargets m fun t => isWrite t && !slotValid t,
    firstOf (fun (k, _) => if writeNamed m k then none else some (wsAt k)) m.ws,
    firstOf (fun x => if repeated (fun y => some (wsClass y.2 * 32 + wsReg y.2)) m.ws x then some (wsAt x.1) else none) m.ws,
    (match firstOf (fun (k, x) => if rsClass x == 1 && 15 < rsReg x then some (rsAt k) else none) m.rs with
     | some r => some r
     | none => firstOf (fun (k, x) => if wsClass x == 1 && 15 < wsReg x then some (wsAt k) else none) m.ws),
    onTargets m fun t => named t && (namedWord m t).isNone,
    onTargets m fun t => match namedWord m t with
      | some w => (t.toNat / 64 == 1 && !useA w) || (t.toNat / 64 == 2 && !useB w)
      | none => false,
    onTargets m fun t => match namedWord m t with | some w => t.toNat / 64 == 3 && prOf w == 0 | none => false,
    onWords m fun _ w => prOf w == 1 && noLanes w,
    onWords m fun i w => isX w && i + 1 == m.len,
    firstOf (fun x => if repeated (fun y => if isExit y.2 then some (wf y.2 20 3) else none) m.is x then some (1, x.1) else none) m.is,
    firstOf (fun x => if repeated (fun y => if hasLsid y.2 then some (lsidOf y.2) else none) m.is x then some (1, x.1) else none) m.is,
    (match onWords m fun _ w => hasLsid w && m.smask.getLsbD (lsidOf w) != isHeld w with
     | some r => some r
     | none => if (List.range 32).any fun l => m.smask.getLsbD l && !m.is.any fun x => hasLsid x.2 && lsidOf x.2 == l
       then some (1, 0x101) else none),
    onWords m (irrevBad m) ]

/-- Predecode (R36). -/
def predecode (ev : Nat) (user : Bool) (hdr body : List Word32) : Option PreFault :=
  match checkHeader ev user hdr with
  | some r => some r
  | none => match checkWords ev body with
    | some r => some r
    | none => firstOf id (crossChecks (imageOf hdr body))

end Sys2Proof.Machine
end

