-- ==== Sys2Proof/Machine/Narrow.lean ====
section
/-! DEFINITION. Conversions, MX packing and INT4 codes (R163-R170). -/

namespace Sys2Proof.Machine

/-- ROUND of a conversion: 0 is FPMODE.RM, else RNE, RTZ, RUP, RDN (R78). -/
def roundDir (s : State) (round : BitVec 3) : Nat := if round == 0 then bits s.fpmode 0 2 else round.toNat - 1

/-- The float format of a conversion code from 3 on (R78). -/
def cvtFmt (f : Nat) : Fmt := match f with | 3 => f32 | 4 => bf16 | 5 => f16 | 6 => e4m3 | _ => e5m2

/-- The exact value of a code in format `f` of R78: 0-2 are INT64, INT32, INT8. -/
def cvtVal (f : BitVec 4) (x : Nat) : Ex :=
  if f.toNat < 3 then exInt (sextI x (cvtW f)) else decodeF (cvtFmt f.toNat) (x % 2^(cvtW f))

/-- A value converted to format `f` of R78 (R141). -/
def cvtTo (f : BitVec 4) (m : Nat) (inf : Bool) (x : Ex) : Nat :=
  if f.toNat < 3 then wrapN (exToInt m (-(2^(cvtW f - 1))) (2^(cvtW f - 1) - 1) x) (cvtW f)
  else convCode (cvtFmt f.toNat) m inf x

def cvtStep (pr : BitVec 2) (sh : BitVec 3) (inf : BitVec 1) (round : BitVec 3) (sfmt dfmt : BitVec 4) (t0 : BitVec 8)
    (s : State) : State :=
  fireA s pr fun o s =>
    send1 s t0 (mkTok sh (gateLanes pr o.p (mapLanes (fun x => cvtTo dfmt (roundDir s round) (inf == 1) (cvtVal sfmt x)) (lanesOf sh o.a))))

/-- A B8 conversion of a lane (R165): an infinity of a B8 format reaches formats that have one. -/
def b8Lane (u : Bool) (inf : BitVec 1) (m : Nat) (ofmt : BitVec 4) (back : BitVec 1) (prec : BitVec 3) (x : Nat) : Nat :=
  let f := b8Fmt u prec.toNat (inf == 1)
  if back == 1 then
    let v := decodeF f (x % 256)
    cvtTo ofmt m (match v with | .inf _ => true | _ => false) v
  else convCode f m (inf == 1) (cvtVal ofmt x)

def b8Step (u : Bool) (pr : BitVec 2) (sh : BitVec 3) (inf : BitVec 1) (round : BitVec 3) (ofmt : BitVec 4)
    (back : BitVec 1) (prec : BitVec 3) (t0 : BitVec 8) (s : State) : State :=
  fireA s pr fun o s =>
    send1 s t0 (mkTok sh (gateLanes pr o.p (mapLanes (b8Lane u inf (roundDir s round) ofmt back prec) (lanesOf sh o.a))))

/-- CVT (R164). -/
def execCvt (pr : BitVec 2) (sh : BitVec 3) (inf : BitVec 1) (round : BitVec 3) (sfmt dfmt : BitVec 4) (t0 : BitVec 8)
    (s : State) : Out := .next (cvtStep pr sh inf round sfmt dfmt t0 s)
/-- The B8 conversions (R165). -/
def execCvtB8 (pr : BitVec 2) (sh : BitVec 3) (inf : BitVec 1) (round : BitVec 3) (ofmt : BitVec 4) (back : BitVec 1)
    (prec : BitVec 3) (t0 : BitVec 8) (s : State) : Out := .next (b8Step false pr sh inf round ofmt back prec t0 s)
/-- The UB8 conversions (R165). -/
def execCvtUb8 (pr : BitVec 2) (sh : BitVec 3) (inf : BitVec 1) (round : BitVec 3) (ofmt : BitVec 4) (back : BitVec 1)
    (prec : BitVec 3) (t0 : BitVec 8) (s : State) : Out := .next (b8Step true pr sh inf round ofmt back prec t0 s)

/-! ## MX blocks -/

/-- The 32 BF16 lanes of a token, unless one is null. -/
def bf16Elems (t : Token) : Option (List Ex) :=
  let ls := lanesOf 4 t
  if ls.any Option.isNone then none else some ((ls.filterMap id).map (decodeF bf16))

/-- A packed token: element codes of `w` bits, then the scale byte (R166). -/
def mxToken (w : Nat) (q : Nat × List Nat) : Token :=
  ⟨.ofNat 512 (packLanes w (q.2.map some) + 2^(32 * w) * q.1), 0⟩

def qpkStep (f : Fmt) (emax : Int) (w : Nat) (sh : BitVec 3) (pr : BitVec 2) (t1 t0 : BitVec 8) (s : State) : State :=
  fireA s pr fun o s =>
    send2 s t1 t0 (match bf16Elems o.a with
      | some cs => mxToken w (mxQuant f emax cs)
      | none => nullTok sh)

/-- The 32 values of a packed token as BF16 lanes (R168). -/
def qunpLanes (f : Fmt) (w : Nat) (t : Token) : List (Option Nat) :=
  (List.range 32).map fun i =>
    if t.nul.getLsbD (i * w / 8) || t.nul.getLsbD (4 * w) then none
    else some (rndCode bf16 0 (mxVal f (tokByte t (4 * w)).toNat (laneAt t w i)))

def qunpStep (f : Fmt) (w : Nat) (pr : BitVec 2) (t1 t0 : BitVec 8) (s : State) : State :=
  fireA s pr fun o s => send2 s t1 t0 (mkTok 4 (qunpLanes f w o.a))

/-- QPK4 (R167). -/
def execQpk4 (pr : BitVec 2) (t1 t0 : BitVec 8) (s : State) : Out := .next (qpkStep e2m1 2 4 6 pr t1 t0 s)
/-- QPK8.e4m3 (R167). -/
def execQpk8E4m3 (pr : BitVec 2) (t1 t0 : BitVec 8) (s : State) : Out := .next (qpkStep e4m3 8 8 5 pr t1 t0 s)
/-- QPK8.e5m2 (R167). -/
def execQpk8E5m2 (pr : BitVec 2) (t1 t0 : BitVec 8) (s : State) : Out := .next (qpkStep e5m2 15 8 5 pr t1 t0 s)
/-- QUNP.e2m1 (R168). -/
def execQunpE2m1 (pr : BitVec 2) (t1 t0 : BitVec 8) (s : State) : Out := .next (qunpStep e2m1 4 pr t1 t0 s)
/-- QUNP.e4m3 (R168). -/
def execQunpE4m3 (pr : BitVec 2) (t1 t0 : BitVec 8) (s : State) : Out := .next (qunpStep e4m3 8 pr t1 t0 s)
/-- QUNP.e5m2 (R168). -/
def execQunpE5m2 (pr : BitVec 2) (t1 t0 : BitVec 8) (s : State) : Out := .next (qunpStep e5m2 8 pr t1 t0 s)

/-! ## INT4 codes -/

/-- ENT k, a signed byte of LUT4A or LUT4B (R130). -/
def lutEnt (k : Core) (code : Nat) : Int :=
  if code < 8 then sextI (bits k.lut4a (8 * code) 8) 8 else sextI (bits k.lut4b (8 * (code - 8)) 8) 8

/-- A scaled INT4 element (R131). An entry 0 under a negative scale gives -0 (log 73, DESIGN CHOICE). -/
def lutScaled (k : Core) (f : Fmt) (sigma : Ex) (code : Nat) : Nat := rndCode f 0 (exMul (exInt (lutEnt k code)) sigma)

/-- LUT4 with a scale: `n` codes, then the scale (R169). -/
def lutLanes (k : Core) (f : Fmt) (n : Nat) (t : Token) : List (Option Nat) :=
  let z := f.width / 8
  let sigma := decodeF f (t.pay.toNat / 2^(4 * n) % 2^f.width)
  (List.range n).map fun i =>
    if t.nul.getLsbD (i / 2) || anyNull t (n / 2) z then none else some (lutScaled k f sigma (laneAt t 4 i))

def lut4Step (pr : BitVec 2) (sh : BitVec 3) (t1 t0 : BitVec 8) (s : State) : State :=
  fireA s pr fun o s =>
    let k := s.core s.cur.1
    send2 s t1 t0 (
      if sh == 6 then mkTok 5 ((List.range 64).map fun i =>
        if o.a.nul.getLsbD (i / 2) then none else some (wrapN (lutEnt k (laneAt o.a 4 i)) 8))
      else if sh == 4 then mkTok 4 (lutLanes k bf16 32 o.a)
      else mkTok 3 (lutLanes k f32 16 o.a))

/-- An element over a scale, rounded to an integer (R170): the quotient is exact, ties go to even. -/
def i4Code (x sigma : Ex) : Nat :=
  match x, sigma with
  | .num a m e, .num b n k =>
    if n = 0 ∨ m = 0 then 0
    else
      -- round m 2^e / (n 2^k): compare twice the remainder with the divisor
      let e0 := min e k
      let p := alignUp m e e0
      let q := alignUp n k e0
      let z := p / q
      let r := 2 * (p % q)
      let z := if q < r || (r = q && z % 2 = 1) then z + 1 else z
      wrapN (satI (if a != b then -(z : Int) else z) (-8) 7) 4
  | .inf a, .num b n _ => if n = 0 then 0 else if a != b then 8 else 7
  | _, _ => 0

def i4pkStep (pr : BitVec 2) (sh : BitVec 3) (t1 t0 : BitVec 8) (s : State) : State :=
  fireAB s pr fun o s =>
    let f := if sh == 3 then f32 else bf16
    let z := f.width / 8
    let ls := lanesOf (if sh == 3 then 3 else 4) o.a
    let code := o.b.pay.toNat % 2^f.width
    send2 s t1 t0 (
      if ls.any Option.isNone || anyNull o.b 0 z then nullTok sh
      else
        let qs := packLanes 4 ((ls.filterMap id).map fun x => some (i4Code (decodeF f x) (decodeF f code)))
        ⟨.ofNat 512 (if sh == 6 then qs else qs + 2^(4 * ls.length) * code), 0⟩)

/-- LUT4 (R169). -/
def execLut4 (pr : BitVec 2) (sh : BitVec 3) (t1 t0 : BitVec 8) (s : State) : Out := .next (lut4Step pr sh t1 t0 s)
/-- I4PK (R170). -/
def execI4pk (pr : BitVec 2) (sh : BitVec 3) (t1 t0 : BitVec 8) (s : State) : Out := .next (i4pkStep pr sh t1 t0 s)

end Sys2Proof.Machine
end

