-- ==== Sys2Proof/Machine/Memory.lean ====
section
/-! DEFINITION. The Loft and its decode windows (R176-R179), host memory through the host-attach agent (R183, R411),
accesses at their homes (R186, R187, R189, R218-R221), and the way an access takes to its home and back (R208, R269,
R344). -/

namespace Sys2Proof.Machine

/-! ## The Loft -/

/-- Window n's configuration (R178). -/
def Core.win (k : Core) (n : Nat) : Word := k.wincfg.getD (n - 1) 0
def Core.wscaleOf (k : Core) (n : Nat) : Nat := (k.wscale.getD (n - 1) 0).toNat

/-- Output width in bytes of a window. -/
def winZ (cfg : Word) : Nat := match bits cfg 4 2 with | 0 => 2 | 1 => 4 | _ => 1

/-- The window is usable (R178). -/
def winUsable (cfg : Word) : Bool :=
  let efmt := bits cfg 1 3
  let out := bits cfg 4 2
  let sfmt := bits cfg 6 2
  let gmode := cfg.getLsbD 13
  let glog := bits cfg 14 4
  cfg.getLsbD 0 && efmt < 5 && out != 3 && sfmt != 3 && glog ≤ 12 &&
  (3 ≤ efmt || (sfmt == 0 && !gmode && glog == 5 && out != 2)) &&
  (efmt != 4 || (sfmt == 0 && out != 2 && bits cfg 9 3 != 0)) &&
  (efmt != 3 || out != 2 || sfmt == 0)

/-- Element's group (R179). -/
def winGroup (cfg : Word) (e : Nat) : Nat := if cfg.getLsbD 13 then e % 2^(bits cfg 14 4) else e / 2^(bits cfg 14 4)
/-- Code byte of element `e`. -/
def winCodeAt (cfg : Word) (e : Nat) : Nat :=
  bits cfg 18 17 + (if bits cfg 1 3 == 0 || bits cfg 1 3 == 3 then e / 2 else e)
/-- Scale bytes of element `e`: first and count. -/
def winScaleAt (k : Core) (n e : Nat) : Nat × Nat :=
  let cfg := k.win n
  let g := winGroup cfg e
  match bits cfg 1 3 with
  | 3 => (match bits cfg 6 2 with | 1 => (k.wscaleOf n + 2 * g, 2) | 2 => (k.wscaleOf n + 4 * g, 4) | _ => (0, 0))
  | 4 => (0, 0)
  | _ => (k.wscaleOf n + g, 1)

/-- Elements that image bytes `[o, o+size)` lie in. -/
def winElems (cfg : Word) (o size : Nat) : List Nat :=
  let z := winZ cfg
  (List.range (if size = 0 then 0 else (o + size - 1) / z - o / z + 1)).map fun j => o / z + j

/-- Raw bytes that a window load reads (R176, R179). -/
def winBytes (k : Core) (n o size : Nat) : List Nat :=
  (winElems (k.win n) o size).flatMap fun e =>
    let (a, z) := winScaleAt k n e
    winCodeAt (k.win n) e :: (List.range z).map fun j => a + j

/-- The raw Loft bytes behind a local range; none outside the address rules (R176). -/
def localBytes (k : Core) (a : Word) (size : Nat) (wr : Bool) : Option (List Nat) :=
  let n := bits a 17 3
  let o := bits a 0 17
  if bits a 20 44 != 0 || 0x20000 < o + size then none
  else if n = 0 then (if 0x18000 < o + size then none else some ((List.range size).map fun j => o + j))
  else if wr || !winUsable (k.win n) then none
  else
    let bs := winBytes k n o size
    if bs.any fun x => 0x18000 ≤ x then none else some bs

/-- local_check with given protection bounds (R176, R308). -/
def localOk (k : Core) (user : Bool) (base limit : Nat) (a : Word) (size : Nat) (wr : Bool) : Bool :=
  match localBytes k a size wr with
  | none => false
  | some bs => !user || bs.all fun x => base ≤ x && x < limit

/-- A raw range of the Loft inside the user bounds, without listing its bytes (R176). -/
def rawOk (user : Bool) (base limit a size : Nat) : Bool :=
  a + size ≤ 0x18000 && (!user || size == 0 || (base ≤ a && a + size ≤ limit))

/-- Any of these raw bytes holds an uncorrectable error (R189). -/
def loftBad (k : Core) (bs : List Nat) : Bool := bs.any fun x => k.loftPoison.contains x

/-- Bytes of a number of `n` bytes. -/
def natBytes (n x : Nat) : List Byte := leBytes x n

/-- The bytes of decoded element `e` of window `n` (R179). A table entry 0 under a negative scale gives -0 (log 73, DESIGN
CHOICE). -/
def winElem (k : Core) (n e : Nat) : List Byte :=
  let cfg := k.win n
  let efmt := bits cfg 1 3
  let byte := (memRead k.loft (winCodeAt cfg e)).toNat
  let code := if efmt == 0 || efmt == 3 then (if e % 2 == 0 then byte % 16 else byte / 16) else byte
  let (sa, sz) := winScaleAt k n e
  let scale := leNat (memBytes k.loft sa sz)
  if bits cfg 4 2 == 2 then natBytes 1 (wrapN (lutEnt k code) 8)
  else
    let v : Ex := match efmt with
      | 0 => mxVal e2m1 scale code
      | 1 => mxVal e4m3 scale code
      | 2 => mxVal e5m2 scale code
      | 3 => exMul (exInt (lutEnt k code)) (match bits cfg 6 2 with
          | 1 => decodeF bf16 scale | 2 => decodeF f32 scale | _ => .num false 1 0)
      | _ => decodeF (b8Desc (bits cfg 8 5)) code
    if bits cfg 4 2 == 0 then natBytes 2 (rndCode bf16 0 v) else natBytes 4 (rndCode f32 0 v)

/-- Image bytes `[o, o+size)` of window `n` (R179). -/
def winRead (k : Core) (n o size : Nat) : List Byte :=
  let z := winZ (k.win n)
  let all := (winElems (k.win n) o size).flatMap (winElem k n)
  (all.drop (o % z)).take size

/-- A local load's bytes. -/
def localRead (k : Core) (a : Word) (size : Nat) : List Byte :=
  if bits a 17 3 == 0 then memBytes k.loft (bits a 0 17) size else winRead k (bits a 17 3) (bits a 0 17) size

/-- Addresses of the bytes of a write that are present. -/
def presentAt (a : Nat) : List (Option Byte) → List Nat
  | [] => []
  | none :: d => presentAt (a + 1) d
  | some _ :: d => a :: presentAt (a + 1) d

/-- Bytes written to a Loft; a byte written is no longer in error (log 14, DEDUCED). -/
def loftWrite (s : State) (c a : Nat) (d : List (Option Byte)) : State :=
  let w := presentAt a d
  s.onCore c fun k => { k with loft := memPutAll k.loft a d, loftPoison := k.loftPoison.filter fun x => !w.contains x }

/-! ## Host memory -/

/-- The mark of a line of host memory in `State.poison`: above every line of the device. -/
def hostLine (pa : Nat) : Nat := 2^35 + pa / 64
/-- A line of host memory is in error. -/
def hostBad (s : State) (pa : Nat) : Bool := s.poison.contains (hostLine pa)

/-- An error of host memory is counted on die 0; which of its sources counts it is free (R407; log 77, DESIGN CHOICE). -/
def hostErr (s : State) (ue : Bool) : State :=
  let (inSlice, s) := s.drawBit
  let (k, s) := s.drawBelow (if inSlice then 64 else 128)
  match inSlice, ue with
  | true, true => sliceUe s k
  | true, false => sliceCe s k
  | false, true => srcUe s 2 k 0
  | false, false => srcCe s 2 k 0

/-- A line of host memory in the host-attach agent: taken Shared if it is not there (R183, R204). -/
def agentLine (s : State) (pa : Nat) : AgentLine :=
  aget s.agent (pa / 64) ⟨1, memBytes s.hostMem (pa / 64 * 64) 64⟩

/-- A device read of host bytes within one line (R204). -/
def hostRead (s : State) (pa n : Nat) : List Byte × State :=
  let l := agentLine s pa
  ((l.d.drop (pa % 64)).take n, { s with agent := aput s.agent (pa / 64) l })

/-- Bytes put over others from offset `o`. -/
def overlay (old : List Byte) (o : Nat) (d : List (Option Byte)) : List Byte :=
  old.zipIdx.map fun (b, i) => if o ≤ i then ((d[i - o]?).join).getD b else b

/-- Where `State.rels` keeps a byte of host memory: above every byte of the device. -/
def hostKey (pa : Nat) : Nat := 2^41 + pa

/-- A device write of host bytes within one line: the agent holds it Modified (R204, R411). -/
def hostWrite (s : State) (pa : Nat) (d : List (Option Byte)) : State :=
  let l := agentLine s pa
  let whole := d.length == 64 && d.all Option.isSome
  { s with
    agent := aput s.agent (pa / 64) ⟨3, overlay l.d (pa % 64) d⟩, rels := dropRels s.rels (hostKey pa) d
    poison := if whole then s.poison.filter (· != hostLine pa) else s.poison }

/-! ## Atomics -/

/-- The new value of an atomic on `8n` bits, none where nothing is written (R218). -/
def amoNew (fn : Nat) (n old : Nat) (b : Nat) : Option Nat :=
  let w := 8 * n
  let x := b % 2^w
  match fn with
  | 0 => some ((old + x) % 2^w)
  | 1 => some (old &&& x)
  | 2 => some (old ||| x)
  | 3 => some (old ^^^ x)
  | 4 => some (laneMin w old x)
  | 5 => some (laneMax w old x)
  | 6 => some (min old x)
  | 7 => some (max old x)
  | 8 => some x
  | 9 => if old = b / 2^w % 2^w then some x else none
  | _ => some (rndCode f32 0 (exAdd false (decodeF f32 old) (decodeF f32 x)))

def amoBytes (wide : Bool) : Nat := if wide then 8 else 4

/-- What an atomic writes over the bytes it read (R218). -/
def amoData (fn : BitVec 4) (wide : Bool) (b : BitVec 128) (old : List Byte) : List (Option Byte) :=
  match amoNew fn.toNat (amoBytes wide) (leNat old) b.toNat with
  | some v => (natBytes (amoBytes wide) v).map some
  | none => []

/-- A returning atomic's token of the old bytes (R218). -/
def amoTok (wide : Bool) (old : List Byte) : Token := if wide then dTok (leNat old) else mkTok 1 [some (leNat old)]

/-- What a vector atomic writes over 64 bytes (R221). -/
def vamoData (fn : BitVec 4) (b : Token) (old : List Byte) : List (Option Byte) :=
  match fn.toNat with
  | 0 => List.zipWith (fun x y => y.map (x ||| ·)) old (tokBytes b 64)
  | 1 => List.zipWith (fun x y => y.map (x &&& ·)) old (tokBytes b 64)
  | _ =>
    let m := packLanes 8 (old.map fun x => some x.toNat)
    (List.range 16).flatMap fun i => match laneOf b 32 i with
      | some x => (natBytes 4 ((m / 2^(32 * i) % 2^32 + x) % 2^32)).map some
      | none => List.replicate 4 none

/-! ## Accesses at a home (R186) -/

/-- What an access answers: bytes read or an atomic's old bytes, done, or an uncorrectable error. -/
inductive HomeAns where
  | data (d : List Byte)
  | done
  | bad
  deriving DecidableEq, Repr

/-- Undo writes of a line that were not written back: `n` of them, the newest first (R187). -/
def undoWrites (m : Mem) : List (Mem × Bool) → Nat → Mem
  | w :: ws, n + 1 => undoWrites (w.1.foldl (fun m c => memPut m c.1 c.2) m) ws n
  | _, _ => m

/-- The poison mark of a line before the `n` newest of its logged writes. -/
def undoMark (bad : Bool) : List (Mem × Bool) → Nat → Bool
  | w :: ws, n + 1 => undoMark w.2 ws n
  | _, _ => bad

/-- Lines with a poison mark, with the mark of one line set or cleared. -/
def markLine (l : List Nat) (line : Nat) (bad : Bool) : List Nat :=
  if bad then (if l.contains line then l else line :: l) else l.filter (· != line)

/-- The discard of LD.last at the home: a free number of the line's writes were not written back. Where no way holds the line
it discards nothing (R187). -/
def discardLine (s : State) (pa : Nat) : State :=
  let line := fwd s pa / 128
  if !mayBeHeld s line then s
  else
    let log := aget s.undo line []
    let (n, s) := s.drawBelow (log.length + 1)
    { s with
      mem := undoWrites s.mem log n, undo := adel s.undo line, rels := s.rels.filter fun e => e.1 / 128 != line
      poison := markLine s.poison line (undoMark (s.poison.contains line) log n) }

/-- Lines of `[pa, pa+len)` are written back: what they hold is what HBM holds (R224). -/
def cleanRange (s : State) (pa len : Nat) : State :=
  { s with undo := s.undo.map fun e => if 128 * e.1 + 128 ≤ pa || pa + len ≤ 128 * e.1 then e else (e.1, []) }

/-- Write-back of the lines of a range, page by page; a page that does not translate is skipped (R224). -/
def cleanPages (s : State) (asid : BitVec 16) (die : Nat) : Nat → Nat → Nat → State
  | 0, _, _ => s
  | k + 1, va, stop =>
    if stop ≤ va then s
    else
      let next := min stop (va / 2^21 * 2^21 + 2^21)
      let found := walk s die asid va
      let s := walked s die asid va
      let s := match found with
        | .ok leaf =>
          if leaf.host then s
          else
            let pa := leafPa leaf va
            let s := cleanRange s pa (next - va)
            (match s.migs.find? fun m => m.old ≤ pa && pa < m.old + (if m.big then 2^25 else 2^21) with
             | some m => cleanRange s (m.new + (pa - m.old)) (next - va)
             | none => s)
        | .error _ => s
      cleanPages s asid die k next stop

/-- A CLEAN at this device's homes: at most 2^32 bytes, cut at the end of the virtual addresses (R224). -/
def cleanGlobal (s : State) (asid : BitVec 16) (g : Word) (len : Nat) : State :=
  if nodeOf (s.norm g) == 0xFF then s
  else cleanPages s asid (dieOf g) 2050 (vaOf g) (min (2^48) (vaOf g + min len (2^32)))

/-- Read, combine and write of device bytes within a line; an error writes nothing and is counted (R219, R220). -/
def rmw (s : State) (pa n : Nat) (f : List Byte → List (Option Byte)) : HomeAns × State :=
  if poisoned s pa then (.bad, (dataUe s (sliceOf (fwd s pa))).count 8)
  else
    let old := physRead s pa n
    (.data old, physWrite s pa (f old))

/-- An operation on device memory at a home. -/
def devOp (s : State) (pa : Nat) (op : MemOp) : HomeAns × State :=
  match op with
  | .read _ z _ =>
    if z != 0 && poisoned s pa then (.bad, dataUe s (sliceOf (fwd s pa)))
    else (.data (physRead s pa z), mayCache s (fwd s pa))
  | .write d => (.done, physWrite s pa d)
  | .amo fn wide b => rmw s pa (amoBytes wide) (amoData fn wide b)
  | .vamo fn b => rmw s pa 64 (vamoData fn b)
  | .discard => (.done, discardLine s pa)
  | .clean len => (.done, cleanRange s pa len)
  | .probe _ _ => (.done, s)

/-- An operation on host memory at the host-attach agent. A line in error answers as one of the device does (R189; log 77,
DEDUCED). -/
def hostOp (s : State) (pa : Nat) (op : MemOp) : HomeAns × State :=
  let rw (n : Nat) (f : List Byte → List (Option Byte)) : HomeAns × State :=
    if hostBad s pa then (.bad, (hostErr s true).count 8)
    else
      let (old, s) := hostRead s pa n
      (.data old, hostWrite s pa (f old))
  match op with
  | .read _ z _ =>
    if z != 0 && hostBad s pa then (.bad, hostErr s true)
    else
      let (d, s) := hostRead s pa z
      (.data d, s)
  | .write d => (.done, hostWrite s pa d)
  | .amo fn wide b => rw (amoBytes wide) (amoData fn wide b)
  | .vamo fn b => rw 64 (vamoData fn b)
  | _ => (.done, s)

def memOp (s : State) (leaf : Leaf) (pa : Nat) (op : MemOp) : HomeAns × State :=
  match op with
  | .discard => if leaf.disc && !leaf.host then devOp s pa op else (.done, s)
  | _ => if leaf.host then hostOp s pa op else devOp s pa op

/-! ## Flits -/

/-- The node a flit goes to. -/
def flitNode : Flit → Nat
  | .write n .. | .read n .. | .rdata n .. | .access n .. | .ack n .. | .fail n .. | .notice n .. | .sub n .. | .dec n ..
  | .credit n .. | .other n _ => n

/-- A flit leaves; notices, subscriptions and decrements are held until their node is reachable (R345). -/
def sendFlit (s : State) (f : Flit) : State :=
  let waits := match f with | .notice .. | .sub .. | .dec .. => true | _ => false
  if waits && (s.portTo (flitNode f)).isNone then { s with heldFlits := s.heldFlits ++ [f] }
  else { s with sent := s.sent ++ [f] }

/-- The bytes that answer a READ leave, in RDATA flits with at most 64 data flits each (R343, R351). -/
def sendData (node tag : Nat) (asid : BitVec 16) : Nat → List Byte → State → State
  | 0, d, s => sendFlit s (.rdata node tag asid d true)
  | k + 1, d, s =>
    if d.length ≤ 4096 then sendFlit s (.rdata node tag asid d true)
    else sendData node tag asid k (d.drop 4096) (sendFlit s (.rdata node tag asid (d.take 4096) false))
def answerRead (s : State) (node tag : Nat) (asid : BitVec 16) (d : List Byte) : State :=
  sendData node tag asid (d.length / 4096) d s

/-- A fresh transfer tag of 32 bits. No two devices give the same one (R343, log 32, DEDUCED). -/
def freshTag (s : State) : Nat := (s.nextId * 128 + s.sysnum.toNat) % 2^32

/-- A tag for a transfer. -/
def newTag (s : State) (u : TagUse) : Nat × State := (freshTag s, { s.fresh with tags := aput s.tags (freshTag s) u })

/-- A remote access leaves: a load as READ, anything else as ACCESS (R343, R344). -/
def sendRemote (s : State) (m : MemReq) : State :=
  let (tag, s) := newTag s (.mem m)
  sendFlit s (match m.op with
    | .read _ z _ => .read (nodeOf m.g) tag (.addr m.asid m.user m.g) z (match m.orig with
        | .load src => some (src.core, src.lsid)
        | _ => none)
    | op => .access (nodeOf m.g) tag ⟨m.asid, m.user, m.g, op⟩)

/-! ## The store buffer's entries end -/

/-- An entry of a store buffer has one part less to wait for; with none it leaves (R50). -/
def sbDone (s : State) (c seq : Nat) : State :=
  s.onCore c fun k => { k with sb := k.sb.filterMap fun e =>
    if e.seq == seq then (if e.parts ≤ 1 then none else some { e with parts := e.parts - 1 }) else some e }

/-- A part of an effect has been performed: its bytes are in memory, and no load takes them from the store buffer (R194). -/
def partGone (m : MemReq) : Eff → Eff
  | .store g loc rel d =>
    let o := (m.g - g).toNat
    let n := match m.op with | .write x => x.length | _ => 0
    .store g loc rel (d.zipIdx.map fun (b, i) => if o ≤ i && i < o + n then none else b)
  | e => e

/-- A part of an entry of a store buffer has been performed at its home. -/
def sbPart (s : State) (c seq : Nat) (m : MemReq) : State :=
  sbDone (s.onCore c fun k => { k with sb := k.sb.map fun e =>
    if e.seq == seq then { e with eff := partGone m e.eff } else e }) c seq

/-! ## Releases and acquires (R192, R200) -/

/-- Core `w` is a member of a scope, counted from core `c` (R192). Numbers from 8,192 on are other devices. -/
def inScope (scope c w : Nat) : Bool :=
  match scope with
  | 0 => false
  | 1 => c == w
  | 2 => c / 4 == w / 4
  | 3 => coreDie c == coreDie w
  | 4 => w < 8192
  | _ => true

/-- The scope of the release that an effect is, 0 for none (R192, R199). -/
def effRel : Eff → Nat
  | .store _ _ rel _ | .amo _ _ _ _ _ rel | .vamo _ _ _ _ rel => rel.toNat
  | _ => 0

/-- The scope of an acquire of global memory, 0 for any other load (R70). -/
def acqScope (w : Word32) : Nat := if majorOf w == 0x60 && wf w 12 3 == 1 then wf w 8 4 else 0

/-- Where `State.rels` keeps a byte. -/
def relKey (s : State) (leaf : Leaf) (pa : Nat) : Nat := if leaf.host then hostKey pa else fwd s pa

/-- An acquire of core `c` with scope `sa` that reads `n` bytes from `a` on synchronises with a release (R200). One of host memory
at SYSTEM scope does with the host (R204). -/
def syncs (s : State) (c sa a n : Nat) (host : Bool) : Bool :=
  (host && sa == 5) ||
  (List.range n).any fun j => (aget s.rels (a + j) []).any fun x => inScope x.2 x.1 c && inScope sa c x.1

/-- The release that an access is: its core or device, and its scope. A peer's accesses come as SYSTEM releases (R199, R344). -/
def releaseOf (s : State) (m : MemReq) : List (Nat × Nat) :=
  match m.orig with
  | .sb c seq _ => (match (s.core c).sb.find? fun e => e.seq == seq with
    | some e => if effRel e.eff == 0 then [] else [(c, effRel e.eff)]
    | none => [])
  | .peer node _ => [(8192 + node, 5)]
  | _ => []

/-- What a read of the bytes that an access has written synchronises with: the access where it is a release, and behind an atomic
what a read synchronised with (`old`) (R200). -/
def noteRel (s : State) (old : AMap (List (Nat × Nat))) (m : MemReq) (a : Nat) : State :=
  let new := releaseOf s m
  let add (keep : Bool) (r : AMap (List (Nat × Nat))) (j : Nat) : AMap (List (Nat × Nat)) :=
    let x := new ++ (if keep then aget old j [] else []).filter fun y => !new.contains y
    if x.isEmpty then r else aput r j x
  let put (keep : Bool) (hit : List Nat) : State := { s with rels := hit.foldl (add keep) s.rels }
  match m.op with
  | .write d => put false (presentAt a d)
  | .amo _ w _ => put true ((List.range (amoBytes w)).map (a + ·))
  | .vamo .. => put true ((List.range 64).map (a + ·))
  | _ => s

/-! ## Outcomes reach their block -/

/-- A block's operation with this issuer, if it is still current. -/
def blockOf (s : State) (src : Src) : Option Block :=
  if s.current src then (s.strand src.core src.strand).block else none

/-- The lower of two failing parts: by address (R208). -/
def lowerPart (o : Option (Nat × Word)) (x : Nat × Word) : Nat × Word :=
  match o with
  | some y => if y.2.toNat ≤ x.2.toNat then y else x
  | none => x

/-- A returning operation has no result but a cause: the block faults, by no load in doubt if it is this one. A load that went ahead
of it is performed again. -/
def sureFault (s : State) (src : Src) (x : Nat × Word) : State :=
  let known (e : Early) : Early :=
    match e.on with
    | some l => if l.contains src.idx then { e with on := none } else e
    | none => e
  raise (s.onBlock src.core src.strand fun b => { b with early := (b.early.filter fun e => e.idx != src.idx).map known })
    src.core src.strand x.1 x.2 (some src.lsid)

/-- A part of a returning operation fails. A load reports its lowest failing part, once every part is known (R208). -/
def failPart (s : State) (src : Src) (x : Nat × Word) : State :=
  match blockOf s src with
  | none => s
  | some b =>
    match b.outst.find? fun o => o.idx == src.idx with
    | none => sureFault s src x
    | some o =>
      let bad := lowerPart o.bad x
      if o.left ≤ 1 then sureFault s src bad
      else s.onBlock src.core src.strand fun b => { b with outst := b.outst.map fun o =>
        if o.idx == src.idx then { o with left := o.left - 1, bad := some bad } else o }

/-- A cause for an operation of a block (R208); for a peer a FAIL; prefetches and finished blocks get nothing. -/
def failAccess (s : State) (m : MemReq) (cause : Nat) : State :=
  let hit (src : Src) : State := if s.current src then raise s src.core src.strand cause m.g (some src.lsid) else s
  match m.orig with
  | .load src => failPart s src (cause, m.g)
  | .held src _ => hit src
  | .atomicProbe src => hit src
  | .sb c seq _ => sbDone s c seq
  | .prefetch => s
  | .peer node tag => sendFlit s (.fail node tag m.asid cause m.g)

/-- A held effect's part has passed; with the last one it has arrived (R49, R56). -/
def passHeld (s : State) (src : Src) (off pa : Nat) (leaf : Option Leaf) : State :=
  let s := s.onBlock src.core src.strand fun b => { b with held := b.held.map fun h =>
    if h.lsid == src.lsid then
      { h with
        need := h.need - 1
        tr := match leaf with | some l => h.tr ++ [(off, pa, l)] | none => h.tr }
    else h }
  match blockOf s src with
  | some b => if b.held.any fun h => h.lsid == src.lsid && h.need == 0 then arrive s src.core src.strand src.lsid else s
  | none => s

/-- An access that its home admits: a probe has its answer, anything else goes on to be performed. -/
def passAccess (s : State) (m : MemReq) (pa : Nat) (leaf : Leaf) : State :=
  match m.op, m.orig with
  | .probe _ _, .held src off => if s.current src then passHeld s src off pa (some leaf) else s
  | .probe _ _, .atomicProbe src =>
    if s.current src then s.onBlock src.core src.strand fun b => { b with
      atomic := b.atomic.map fun a => { a with probed := true, held := { a.held with tr := [(0, pa, leaf)] } } }
    else s
  | .probe _ _, .peer node tag => sendFlit s (.ack node tag m.asid none)
  | _, _ => s.emit (.homeAccess m pa leaf)

/-- An access needs write permission: stores and atomics (R208). -/
def opWrites : MemOp → Bool
  | .write _ | .amo .. | .vamo .. => true
  | .probe _ wr => wr
  | _ => false

/-- A leaf that was found is checked, and the access goes on or fails (R269). -/
def checkAccess (s : State) (m : MemReq) (leaf : Leaf) : State :=
  if leafBad m.g leaf m.user (opWrites m.op) false m.core then failAccess s m 8
  else passAccess s m (accessPa s m.g m.asid leaf) leaf

/-- An access leaves for its home; its address has passed step 2 of R208. -/
def sendAccess (s : State) (m : MemReq) : State :=
  if isRemote (s.norm m.g) then (if m.orig == .prefetch then s else sendRemote s m)
  else match tlbLook s m.g m.asid with
    | (some leaf, s) => checkAccess s m leaf
    | (none, s) => if m.orig == .prefetch then s else s.emit (.pageWalk m)

/-- Two misses are to one page: of `leaf`'s size, or of the smaller where none was found. -/
def samePage (leaf : Option Leaf) (m n : MemReq) : Bool :=
  let size := match leaf with | some l => if l.big then 2^25 else 2^21 | none => 2^21
  dieOf n.g == dieOf m.g && n.asid == m.asid && vaOf n.g / size == vaOf m.g / size

/-- The misses that wait for a walk of the same page: they share it (R271, R276). -/
def sharers (s : State) (leaf : Option Leaf) (m : MemReq) : List MemReq :=
  s.due.filterMap fun p => match p with
    | .pageWalk n => if samePage leaf m n then some n else none
    | _ => none

/-- The waiting misses of a page leave the translator. -/
def dropSharers (s : State) (leaf : Option Leaf) (m : MemReq) : State :=
  { s with due := s.due.filter fun p => match p with | .pageWalk n => !samePage leaf m n | _ => true }

/-- A TLB miss walks the tables, and its result is that of every waiting miss to the page (R269, R271). -/
def pageWalkStep (m : MemReq) (s : State) : State :=
  let found := walk s (dieOf m.g) m.asid (vaOf m.g)
  let leaf := match found with | .ok l => some l | .error _ => none
  let all := m :: sharers s leaf m
  let s := dropSharers (walked s (dieOf m.g) m.asid (vaOf m.g)) leaf m
  match found with
  | .error c => all.foldl (fun s m => failAccess s m c) s
  | .ok leaf => all.foldl (fun s m => checkAccess s m leaf) (tlbInsert s m.g m.asid leaf)

/-! ## The L1 (R181, R214) -/

/-- Virtual line of an address. -/
def State.lineOf (s : State) (g : Word) : Nat := (s.norm g).toNat / 128

def l1Find (k : Core) (asid : BitVec 16) (line : Nat) : Option L1Line := k.l1.find? fun l => l.asid == asid && l.line == line
def l1Drop (k : Core) (asid : BitVec 16) (line : Nat) : Core :=
  { k with l1 := k.l1.filter fun l => !(l.asid == asid && l.line == line) }

/-- Change the bytes of fills on their way to a core's L1, or drop them. -/
def onFills (s : State) (c : Nat) (f : BitVec 16 → Nat → List Byte → Option (List Byte)) : State :=
  { s with due := s.due.filterMap fun p => match p with
      | .l1Fill c' asid line d leaf => if c' == c then (f asid line d).map fun d => .l1Fill c' asid line d leaf else some p
      | p => some p }

/-- Lines of a core's L1 are invalidated, and no fill of them that is under way is kept (R181, R223). -/
def l1Forget (s : State) (c : Nat) (hit : BitVec 16 → Nat → Bool) : State :=
  let s := onFills (s.onCore c fun k => { k with l1 := k.l1.filter fun l => !hit l.asid l.line }) c fun a l d =>
    if hit a l then none else some d
  let noFill (m : MemReq) : MemReq :=
    if m.core == some c && hit m.asid (s.lineOf m.g) then
      { m with op := match m.op with | .read o z _ => .read o z false | op => op }
    else m
  { s with due := s.due.map fun p => match p with
      | .homeAccess m pa leaf => .homeAccess (noFill m) pa leaf
      | .pageWalk m => .pageWalk (noFill m)
      | p => p }

/-- A line enters the L1; which of 128 makes room is free (R181). -/
def l1Insert (s : State) (c : Nat) (l : L1Line) : State :=
  let k := l1Drop (s.core c) l.asid l.line
  if k.l1.length < 128 then s.onCore c fun _ => { k with l1 := l :: k.l1 }
  else
    let (v, s) := s.drawBelow 128
    s.onCore c fun _ => { k with l1 := l :: k.l1.eraseIdx v }

/-- A core's own store updates a line its L1 holds, or is about to hold (R181). -/
def l1Store (s : State) (c : Nat) (asid : BitVec 16) (g : Word) (d : List (Option Byte)) : State :=
  let put (a : BitVec 16) (line : Nat) (old : List Byte) : List Byte :=
    if a == asid && line == s.lineOf g then overlay old (g.toNat % 128) d else old
  onFills (s.onCore c fun k => { k with l1 := k.l1.map fun l => { l with d := put l.asid l.line l.d } }) c fun a l d =>
    some (put a l d)

/-! ## HOME_ACCESS -/

/-- The word of a block's instruction. -/
def wordOf (s : State) (src : Src) : Word32 :=
  match blockOf s src with
  | some b => (match b.slots[src.idx]? with | some sl => sl.word | none => 0)
  | none => 0

/-- The held part of an LD.last whose data was read (R215): the discard of a DISCARDABLE page. One that crosses a 64-byte
boundary holds a discard for each part, two of one line where both parts lie in it (log 75, DESIGN CHOICE). -/
def lastUse (s : State) (src : Src) (g : Word) (pa : Nat) (leaf : Leaf) : State :=
  if majorOf (wordOf s src) == 0x60 && wf (wordOf s src) 12 3 == 3 then
    let s := arrive s src.core src.strand src.lsid
    if leaf.disc then s.onBlock src.core src.strand fun b =>
      { b with held := insertHeld (s.entry src.core src.strand src.lsid src.idx (.discard g) 0 [(0, pa, leaf)]) b.held }
    else s
  else s

/-- The home that an access is performed at (R22, R186, R204). -/
def homeNo (leaf : Leaf) (pa : Nat) : Nat := if leaf.host then 256 else sliceOf pa

/-- An acquire that has read its bytes is known to synchronise, or not (R200). -/
def noteAcquire (s : State) (src : Src) (leaf : Leaf) (pa n : Nat) : State :=
  if syncs s src.core (acqScope (wordOf s src)) (relKey s leaf pa) n leaf.host then
    s.onBlock src.core src.strand fun b => { b with outst := b.outst.map fun o =>
      if o.idx == src.idx then { o with sync := true } else o }
  else s

/-- The answer to a load; an SC or CP line that it fetches for the L1 follows (R214). -/
def answerLoad (s : State) (m : MemReq) (src : Src) (pa : Nat) (leaf : Leaf) (ans : HomeAns) : State :=
  if !s.current src then s
  else match m.op, ans with
    | .read off _ fill, .data d =>
      let s := noteAcquire (lastUse s src m.g pa leaf) src leaf pa d.length
      let s := s.emit (.resultReturn (some (homeNo leaf pa)) src (.bytes off d))
      if fill && (leaf.attr == 1 || leaf.attr == 2) && !leaf.host && !poisoned s pa then
        s.emit (.l1Fill src.core m.asid (s.lineOf m.g) (physRead s (pa / 128 * 128) 128) leaf)
      else s
    | _, _ => s.emit (.resultReturn (some (homeNo leaf pa)) src (.cause 0x17 m.g))

/-- The end of a store-buffer entry's part at its home: the L1 of its core follows (R181, R194), and a returning atomic
has its result (R218, R219). After an uncorrectable error that is a null token of the atomic's own shape (log 74, DESIGN
CHOICE). -/
def answerSb (s : State) (m : MemReq) (c seq : Nat) (ret : Option Src) (pa : Nat) (leaf : Leaf) (ans : HomeAns) : State :=
  let cached := leaf.attr == 1 || leaf.attr == 2
  let s := match m.op with
    | .write d => if cached then l1Store s c m.asid m.g d else s
    | .amo .. | .vamo .. => if cached then l1Forget s c fun a l => a == m.asid && l == s.lineOf m.g else s
    | _ => s
  let s := match ret with
    | none => s
    | some src =>
      let wide := match m.op with | .amo _ w _ => w | _ => true
      s.emit (.resultReturn (some (homeNo leaf pa)) src
        (.tok (match ans with | .data d => amoTok wide d | _ => nullTok (if wide then 0 else 1))))
  sbPart s c seq m

/-- An access is performed at its home (R186). -/
def homeAccessStep (m : MemReq) (pa : Nat) (leaf : Leaf) (s : State) : State :=
  let stale := match m.orig with | .load src => !s.current src | _ => false
  if stale then s
  else if m.orig == .prefetch then (if leaf.host then s else mayCache s (fwd s pa))
  else
  let old := s.rels
  let (ans, s) := memOp s leaf pa m.op
  let s := noteRel s old m (relKey s leaf pa)
  match m.orig with
  | .load src => answerLoad s m src pa leaf ans
  | .sb c seq ret => answerSb s m c seq ret pa leaf ans
  | .peer node tag => sendFlit s (match m.op, ans with
    | .read .., .data d => .rdata node tag m.asid d true
    | .read .., _ => .fail node tag m.asid 0x17 m.g
    | .amo .., .data d => .ack node tag m.asid (some (.ofNat 64 (leNat d)))
    | _, _ => .ack node tag m.asid none)
  | _ => s

/-- The line arrives at the core's L1 (R181). -/
def l1FillStep (core : Nat) (asid : BitVec 16) (line : Nat) (d : List Byte) (leaf : Leaf) (s : State) : State :=
  l1Insert s core ⟨asid, line, d, leaf⟩

/-- PAGE_WALK (R269). -/
def execPageWalk (s : State) : Out := .next (match s.packet with | .pageWalk m => pageWalkStep m s | _ => s)
/-- HOME_ACCESS (R186). -/
def execHomeAccess (s : State) : Out :=
  .next (match s.packet with | .homeAccess m pa leaf => homeAccessStep m pa leaf s | _ => s)
/-- L1_FILL (R181). -/
def execL1Fill (s : State) : Out :=
  .next (match s.packet with | .l1Fill c asid line d leaf => l1FillStep c asid line d leaf s | _ => s)

end Sys2Proof.Machine
end

