-- ==== Sys2Proof/Machine/StoreBuf.lean ====
section
/-! DEFINITION. What leaves the hold partition at commit, and at the issue of a returning atomic: entries of the
store buffer and of the outbound queue, in LSID order (R50, R219); INV acts in that cycle (R223). -/

namespace Sys2Proof.Machine

/-- The range `[a, a+len)` overlaps a line; all ones is every line (R223). -/
def rangeHits (a len : Word) (line : Nat) : Bool :=
  len == BitVec.allOnes 64 || (len != 0 && a.toNat < 128 * line + 128 && 128 * line < a.toNat + len.toNat)

/-- INV (R223): lines go, and fills under way are not kept. -/
def invalidate (s : State) (c : Nat) (asid : BitVec 16) (g len : Word) : State :=
  l1Forget s c fun a line => a == asid && rangeHits (s.norm g) len line

/-- Parts of an effect that is performed at homes: those translated, or the two sides of a 64-byte boundary of a store to
another device. -/
def effParts (e : Eff) (tr : List (Nat × Nat × Leaf)) : Nat :=
  match e with
  | .store g false _ d => if tr.isEmpty && 64 < g.toNat % 64 + d.length then 2 else max 1 tr.length
  | .amo .. | .vamo .. | .discard .. => max 1 tr.length
  | _ => 1

/-- The effect takes room in the store buffer (R50, R252, R290). -/
def takesRoom : Eff → Bool
  | .store .. | .amo .. | .vamo .. | .discard .. | .clean .. | .push .. | .tile .. | .ltile .. | .larder _ => true
  | _ => false

/-- Room in the store buffer (R50). -/
def sbRoom (k : Core) (n : Nat) : Bool := (k.sb.filter fun e => takesRoom e.eff).length + n ≤ 64

/-! ## Commands of a launch (R374) -/

/-- Effects of a list that `p` picks by the major of a command: XCAN is no command of R319. -/
def countedCmds (hs : List Held) (p : Nat → Bool) : Nat :=
  (hs.filter fun h => match h.eff with
    | .cmd w _ _ _ => p (majorOf w) && !(majorOf w == 0x76 && wf w 13 5 == 4)
    | _ => false).length

/-- The block's commands keep their strand within its 32 outstanding ones of each kind (R297, R319; log 37, DEDUCED). -/
def cmdRoom (d : Strand) (b : Block) : Bool :=
  d.matOut + countedCmds b.held (· == 0x74) ≤ 32 && d.engOut + countedCmds b.held (· != 0x74) ≤ 32

/-- Change an accepted launch. -/
def onLaunch (s : State) (asid : BitVec 16) (ver : BitVec 32) (f : Launch → Launch) : State :=
  { s with launches := s.launches.map fun l => if l.asid == asid && l.ver == ver then f l else l }
def findLaunch (s : State) (asid : BitVec 16) (ver : BitVec 32) : Option Launch :=
  s.launches.find? fun l => l.asid == asid && l.ver == ver

/-- A command of a launch's blocks has completed or failed (R374). -/
def cmdEnded (s : State) (launch : Option (BitVec 16 × BitVec 32)) : State :=
  match launch with
  | some (asid, ver) => onLaunch s asid ver fun l => { l with cmds := l.cmds - 1 }
  | none => s
/-- A command of a launch's blocks has left at its commit. -/
def cmdBegun (s : State) (launch : Option (BitVec 16 × BitVec 32)) : State :=
  match launch with
  | some (asid, ver) => onLaunch s asid ver fun l => { l with cmds := l.cmds + 1 }
  | none => s

/-- What the commit of a command counts: the strand's outstanding engine, link and matrix commands (R302, R319, R350), the
launch's commands, and MATCFG for an MCFG (R309). XCAN is counted nowhere. -/
def countCmd (s : State) (c t : Nat) (e : Eff) : State :=
  let launch := (s.strand c t).launch.map fun l => (l.1, l.2.1)
  match e with
  | .larder _ => cmdBegun s launch
  | .cmd w0 w1 _ _ =>
    if majorOf w0 == 0x74 then
      let s := if wf w0 13 5 == 0 then s.onCore c fun k => { k with matcfg := .ofNat 32 (w1.toNat % 2^16) } else s
      cmdBegun (s.onStrand c t fun d => { d with matOut := d.matOut + 1 }) launch
    else if majorOf w0 == 0x76 && wf w0 13 5 == 4 then s
    else cmdBegun (s.onStrand c t fun d => { d with engOut := d.engOut + 1 }) launch
  | _ => s

/-- The ASID that an effect carries: the core's at the firing (R248), and at the commit for a message and for the confirmation
of an SNEW (R336, R291). -/
def entAsid (k : Core) (h : Held) : BitVec 16 :=
  match h.eff with
  | .send .. | .larder (.confirm ..) => k.asid
  | _ => h.asid

/-- One held effect leaves the partition of strand `t` (R50). A FENCE.acq asks for nothing behind it. -/
def releaseOne (s : State) (c t : Nat) (b : Block) (ret : Option Src) (h : Held) : State :=
  let d := s.strand c t
  let k := s.core c
  match h.eff with
  | .inv g len => invalidate s c h.asid g len
  | .fence 0 _ => s
  | e =>
    let tile := match e with | .tile _ | .ltile .. => true | _ => false
    let s := if tile then s.onStrand c t fun d => { d with ackTiles := d.ackTiles + 1 } else s
    let ent : SbEnt :=
      { seq := s.nextId, strand := t, src := ⟨c, t, d.epoch, h.idx, h.lsid⟩, blk := b.addr, asid := entAsid k h
        user := h.user, eff := e, ret := ret, left := false, parts := effParts e h.tr, tr := h.tr
        base := h.base, limit := h.limit, launch := d.launch.map fun l => (l.1, l.2.1), time := s.stamp }
    countCmd (s.fresh.onCore c fun k => { k with sb := k.sb ++ [ent] }) c t h.eff

/-- The block's held effects leave in LSID order (R50). -/
def releaseHeld (s : State) (c t : Nat) (b : Block) : State := b.held.foldl (fun s h => releaseOne s c t b none h) s

end Sys2Proof.Machine
end

