-- ==== Sys2Proof/Machine/MemInstr.lean ====
section
/-! DEFINITION. Loads, stores, atomics, FENCE, INV and CLEAN (chapter 10). -/

namespace Sys2Proof.Machine

/-- The parts of an access on the two sides of a 64-byte boundary: first byte and length (R195, R209). -/
def parts64 (g : Word) (z : Nat) : List (Nat × Nat) :=
  let k := 64 - g.toNat % 64
  if z ≤ k then [(0, z)] else [(0, k), (k, z - k)]

/-- The address of a part of an access. -/
def partAddr (g : Word) (p : Nat × Nat) : Word := g + .ofNat 64 p.1

/-- Step 2 of R208 for a part. -/
def partOk (s : State) (g : Word) (p : Nat × Nat) : Bool := addrOk s (s.norm (partAddr g p))

/-- First part whose address fails step 2 of R208. -/
def badPart (s : State) (g : Word) (ps : List (Nat × Nat)) : Option Word :=
  (ps.find? fun p => !partOk s g p).map (partAddr g)

/-! ## Forwarding (R48, R212) -/

/-- The byte that a store of address `g` puts at `a`, in one space. -/
def storeByte (s : State) (loc : Bool) (a : Nat) : Eff → Option Byte
  | .store g l _ d =>
    let b := if l then g.toNat else (s.norm g).toNat
    if l == loc && b ≤ a then (d[a - b]?).join else none
  | _ => none

/-- The youngest byte for an address among the block's stores with a lower LSID (R48). -/
def ownByte (s : State) (b : Block) (lsid : Nat) (loc : Bool) (a : Nat) : Option Byte :=
  ((b.held.filter fun h => h.lsid < lsid).filterMap fun h => storeByte s loc a h.eff).getLast?

/-- The youngest byte for an address in the core's store buffer (R197). -/
def bufferByte (s : State) (c : Nat) (asid : BitVec 16) (loc : Bool) (a : Nat) : Option Byte :=
  (((s.core c).sb.filter fun e => loc || e.asid == asid).filterMap fun e => storeByte s loc a e.eff).getLast?

/-- The byte that is forwarded for an address (R212). -/
def forward (s : State) (c : Nat) (b : Block) (asid : BitVec 16) (lsid : Nat) (loc : Bool) (a : Nat) : Option Byte :=
  match ownByte s b lsid loc a with
  | some x => some x
  | none => bufferByte s c asid loc a

/-- Some byte of a load is forwarded from the store buffer: its value is bound when it fires. -/
def takesBuffered (s : State) (c : Nat) (b : Block) (asid : BitVec 16) (lsid : Nat) (loc : Bool) (a z : Nat) : Bool :=
  (List.range z).any fun j => (ownByte s b lsid loc (a + j)).isNone && (bufferByte s c asid loc (a + j)).isSome

/-- An atomic in the store buffer may change bytes of the range: a load of them waits for it (R194). -/
def atomicAhead (s : State) (c : Nat) (asid : BitVec 16) (loc : Bool) (a z : Nat) : Bool :=
  let hit (g : Word) (l : Bool) (n : Nat) : Bool :=
    let x := if l then g.toNat else (s.norm g).toNat
    l == loc && x < a + z && a < x + n
  (s.core c).sb.any fun e => (loc || e.asid == asid) && match e.eff with
    | .amo g l _ _ _ _ => hit g l 8
    | .vamo g l _ _ _ => hit g l 64
    | _ => false

/-! ## Order of loads (R194, R197) -/

/-- A global address of the issuing core's die (R196). -/
def onDie (s : State) (c : Nat) (g : Word) : Bool := nodeOf (s.norm g) == 0x7F && dieOf g == coreDie c

/-- The access under a leaf is die-local (R196). -/
def dieLocal (s : State) (c : Nat) (g : Word) (leaf : Leaf) : Bool := onDie s c g && leaf.attr == 0

/-- An access may turn out to be die-local: by the tables as they stand. -/
def mayBeDieLocal (s : State) (c : Nat) (asid : BitVec 16) (g : Word) : Bool :=
  onDie s c g && match walk s (dieOf g) asid (vaOf g) with
    | .ok leaf => leaf.attr == 0
    | .error _ => true

/-- A die-local load of the strand's block with a lower LSID has not been performed (R197). -/
def loadBehind (s : State) (src : Src) : Bool :=
  s.due.any fun p =>
    let earlier (m : MemReq) : Bool := match m.orig with
      | .load o => o.core == src.core && o.strand == src.strand && o.epoch == src.epoch && o.lsid < src.lsid
      | _ => false
    match p with
    | .homeAccess m _ leaf => earlier m && dieLocal s src.core m.g leaf
    | .pageWalk m => earlier m && mayBeDieLocal s src.core m.asid m.g
    | _ => false

/-- A load of the block with a lower LSID that covers bytes of the range has not returned (R194). -/
def sameSpotAhead (b : Block) (lsid : Nat) (loc : Bool) (a z : Nat) : Bool :=
  b.loads.any fun l => l.lsid < lsid && l.loc == loc && a < l.g.toNat + l.z && l.g.toNat < a + z &&
    b.outst.any fun o => o.idx == l.idx

/-- A load of a range waits for what is ahead of it: an atomic in the store buffer, a load of the same bytes, and, where it
is die-local and its value is bound when it fires, a die-local load (R194, R197). -/
def loadWaits (s : State) (src : Src) (b : Block) (loc : Bool) (g : Word) (z : Nat) : Bool :=
  let k := s.core src.core
  let a := if loc then g.toNat else (s.norm g).toNat
  atomicAhead s src.core k.asid loc a z || sameSpotAhead b src.lsid loc a z ||
  (loadBehind s src &&
    (loc || (takesBuffered s src.core b k.asid src.lsid loc a z && mayBeDieLocal s src.core k.asid g)))

/-! ## Loads -/

/-- The null token of a load (R207). -/
def loadNull (z : Nat) : Token := if z = 64 then nullTok 2 else nullTok 0

/-- The token of a load's bytes, gated by PR 01 (R212). -/
def loadTok (z : Nat) (pr : BitVec 2) (p : Token) (d : List Byte) : Token :=
  if z = 64 then gateTok pr 2 p (bytesTok d) else gateTok pr 0 p (dTok (leNat d))

/-- The firing in progress becomes outstanding with the bytes it forwards, and is recorded (R48). -/
def startLoad (s : State) (lsid : BitVec 5) (loc : Bool) (a z parts : Nat) (got : List (Option Byte)) : State :=
  s.onBlock s.cur.1 s.cur.2.1 fun b => { b with
    outst := b.outst ++ [newOutst s.cur.2.2 lsid.toNat z parts got none]
    loads := b.loads ++ [⟨s.cur.2.2, lsid.toNat, .ofNat 64 a, loc, z⟩] }

/-- A covering INV of the block with a lower LSID (R214, R223). -/
def invCovers (s : State) (b : Block) (lsid line : Nat) : Bool :=
  b.held.any fun h => h.lsid < lsid && match h.eff with | .inv g len => rangeHits (s.norm g) len line | _ => false

/-- One part of a global load leaves: the L1 answers a plain load it holds (R214), otherwise the home does. -/
def loadPart (s : State) (b : Block) (src : Src) (plain : Bool) (g : Word) (got : List (Option Byte)) (p : Nat × Nat) : State :=
  let c := src.core
  let asid := (s.core c).asid
  let a := partAddr g p
  let cacheable := plain && nodeOf (s.norm a) == 0x7F
  let forwarded := ((got.drop p.1).take p.2).all Option.isSome
  let m : MemReq :=
    { orig := .load src, g := a, asid := asid, user := s.user, core := some c
      op := .read p.1 (if forwarded then 0 else p.2) cacheable }
  let line := s.lineOf a
  let hit := if cacheable && !invCovers s b src.lsid line then l1Find (s.core c) asid line else none
  match hit with
  | none => sendAccess s m
  | some l =>
    let (kept, s) := s.drawBit
    -- a line that has been replaced answers no later load either
    if !kept then sendAccess (s.onCore c fun k => l1Drop k asid line) m
    else if leafBad a l.leaf s.user false false (some c) then failAccess s m 8
    else s.emit (.resultReturn none src (.bytes p.1 ((l.d.drop (a.toNat % 128)).take p.2)))

/-- A global load (R212): `plain` may use the L1. Its first part is checked at once; a later part that fails is reported
when those before it are known (R208). -/
def loadGlobal (s : State) (lsid : BitVec 5) (z : Nat) (a : Word) (plain : Bool) : State :=
  let l := some lsid.toNat
  if z = 64 && a.toNat % 64 != 0 then faultHere s 9 a l
  else if !partOk s a (0, z) then faultHere s 8 a l
  else match s.curBlock with
    | none => s
    | some b =>
      let k := s.core s.cur.1
      let ps := parts64 a z
      let base := (s.norm a).toNat
      let got := (List.range z).map fun j => forward s s.cur.1 b k.asid lsid.toNat false (base + j)
      let src := s.src lsid
      ps.foldl (fun s p => if partOk s a p then loadPart s b src plain a got p else failPart s src (8, partAddr a p))
        (startLoad s lsid false base z ps.length got)

/-- A Loft load (R176, R179, R212): performed when it fires. -/
def loadLoft (s : State) (lsid : BitVec 5) (z : Nat) (a : Word) : State :=
  let l := some lsid.toNat
  let k := s.core s.cur.1
  match s.curBlock with
  | none => s
  | some b =>
    if z = 64 && a.toNat % 64 != 0 then faultHere s 9 a l
    else if !localOk k s.user k.protbase.toNat k.protlimit.toNat a z false then faultHere s 8 a l
    else
      let window := bits a 17 3 != 0
      let got := (List.range z).map fun j =>
        if window then none else forward s s.cur.1 b k.asid lsid.toNat true (a.toNat + j)
      let reads := ((localBytes k a z false).getD []).filter fun x => window || (got[x - a.toNat]?).join.isNone
      if loftBad k reads then faultHere s 0x17 a l
      else
      let s := startLoad s lsid true a.toNat z 1 got
      s.emit (.resultReturn none (s.src lsid) (.bytes 0 (localRead k a z)))

/-- The fields by which a load finds its address: plain, `.last`, `.pf` and `.loc` add the offset (R212). -/
def loadAddr (t : Token) (off : BitVec 4) (z : Nat) : Word := offAddr (v64 t 0) off.toInt z

/-- A load that was performed ahead of its place is to be performed again: its slot is as before it fired, and the discard of
an LD.last is not yet held. -/
def reopen (s : State) : State :=
  s.onBlock s.cur.1 s.cur.2.1 fun b => { b with
    slots := onNth (fun sl => { sl with fired := false }) b.slots s.cur.2.2
    held := b.held.filter fun h => h.idx != s.cur.2.2 }

/-- The firing in progress was a load ahead of its place, and is outstanding; `on`: ahead of these acquires alone (R200). -/
def markEarly (s : State) (on : Option (List Nat)) : State :=
  s.onBlock s.cur.1 s.cur.2.1 fun b =>
    if b.outst.any fun o => o.idx == s.cur.2.2 then { b with early := b.early ++ [⟨s.cur.2.2, none, on⟩] } else b

/-- The acquire in progress may have later reads performed ahead of it, or not: which is free (R200). Where it may, it is not yet
known to synchronise. -/
def mayLag (s : State) : State :=
  if s.curBlock.any fun b => b.outst.any fun o => o.idx == s.cur.2.2 then
    let (lax, s) := s.drawBit
    s.onBlock s.cur.1 s.cur.2.1 fun b => { b with outst := b.outst.map fun o =>
      if o.idx == s.cur.2.2 then { o with lax := lax, sync := !lax } else o }
  else s

/-- A load fires: in its place, again after it was performed ahead of it, or ahead of its place. What it gave the last time
stands for its value until it is performed in its place (R48, R197; log 7, DEDUCED). `nul` is what a null address does
besides the null token that it gives. -/
def loadFire (pr : BitVec 2) (lsid : BitVec 5) (z : Nat) (t0 : BitVec 8) (loc : Bool) (addr : Token → Word)
    (nul : State → State) (go : State → Word → State) (s : State) : State :=
  match s.curBlock with
  | none => s
  | some b =>
    let c := s.cur.1
    let t := s.cur.2.1
    let i := s.cur.2.2
    let far := !loc && match (b.slots[i]?).bind (·.a) with | some x => !anyNull x 0 8 && isRemote (s.norm (addr x)) | none => false
    let again := againOk s c t b far i
    let place := inPlace s c t b ordersLoads true far lsid.toNat
    let open_ := laxAhead b far lsid.toNat
    if !again && !place && !aheadOk s c t b far lsid.toNat then s
    else fireA (if again then reopen s else s) pr fun o s' =>
      if anyNull o.a 0 8 then send1 (nul s') t0 (loadNull z)
      else if loadWaits s (s.src lsid) b loc (addr o.a) z then s
      else if again || (place && open_.isEmpty) then go s' (addr o.a)
      else if place then markEarly (go s' (addr o.a)) (some open_)
      else match b.guess.find? fun x => x.1 == i with
        | some (_, tk) => send1 (s'.onBlock c t fun b => { b with early := b.early ++ [⟨i, some tk, none⟩] }) t0 tk
        | none => markEarly (go s' (addr o.a)) none

def ldStep (pr : BitVec 2) (lsid : BitVec 5) (size : BitVec 3) (off : BitVec 4) (t0 : BitVec 8) (s : State) : State :=
  loadFire pr lsid (sizeBytes size) t0 false (loadAddr · off (sizeBytes size)) id
    (fun s a => loadGlobal s lsid (sizeBytes size) a true) s
/-- LD.acq (R199): one of this device may turn out to synchronise with no release (R200). -/
def ldAcqStep (pr : BitVec 2) (lsid : BitVec 5) (size : BitVec 3) (t0 : BitVec 8) (s : State) : State :=
  loadFire pr lsid (sizeBytes size) t0 false (v64 · 0) id (fun s a =>
    let s' := loadGlobal s lsid (sizeBytes size) a false
    if isRemote (s.norm a) then s' else mayLag s') s
/-- LD.last: wholly null, its held part has arrived (R215). -/
def ldLastStep (pr : BitVec 2) (lsid : BitVec 5) (size : BitVec 3) (off : BitVec 4) (t0 : BitVec 8) (s : State) : State :=
  loadFire pr lsid (sizeBytes size) t0 false (loadAddr · off (sizeBytes size)) (arriveHere · lsid)
    (fun s a => loadGlobal s lsid (sizeBytes size) a false) s
def ldLocStep (pr : BitVec 2) (lsid : BitVec 5) (size : BitVec 3) (off : BitVec 4) (t0 : BitVec 8) (s : State) : State :=
  loadFire pr lsid (sizeBytes size) t0 true (loadAddr · off (sizeBytes size)) id
    (fun s a => loadLoft s lsid (sizeBytes size) a) s
def ldLocacqStep (pr : BitVec 2) (lsid : BitVec 5) (size : BitVec 3) (t0 : BitVec 8) (s : State) : State :=
  loadFire pr lsid (sizeBytes size) t0 true (v64 · 0) id (fun s a => loadLoft s lsid (sizeBytes size) a) s
/-- LD.pf raises nothing (R216). -/
def ldPfStep (pr : BitVec 2) (off : BitVec 4) (s : State) : State :=
  fireA s pr fun o s =>
    let a := loadAddr o.a off 64
    let g := s.norm a
    if anyNull o.a 0 8 || a.toNat % 64 != 0 || !fieldsOk g || nodeOf g != 0x7F then s
    else sendAccess s
      { orig := .prefetch, g := a, asid := (s.core s.cur.1).asid, user := s.user, core := some s.cur.1, op := .read 0 64 false }

/-- LD (R212). -/
def execLd (pr : BitVec 2) (lsid : BitVec 5) (size : BitVec 3) (off : BitVec 4) (t0 : BitVec 8) (s : State) : Out :=
  .next (ldStep pr lsid size off t0 s)
/-- LD.acq (R212, R199). -/
def execLdAcq (pr : BitVec 2) (lsid : BitVec 5) (size : BitVec 3) (_scope : BitVec 4) (t0 : BitVec 8) (s : State) : Out :=
  .next (ldAcqStep pr lsid size t0 s)
/-- LD.last (R215). -/
def execLdLast (pr : BitVec 2) (lsid : BitVec 5) (size : BitVec 3) (off : BitVec 4) (t0 : BitVec 8) (s : State) : Out :=
  .next (ldLastStep pr lsid size off t0 s)
/-- LD.pf (R216). -/
def execLdPf (pr : BitVec 2) (_lsid : BitVec 5) (off : BitVec 4) (s : State) : Out := .next (ldPfStep pr off s)
/-- LD.loc (R212, R176). -/
def execLdLoc (pr : BitVec 2) (lsid : BitVec 5) (size : BitVec 3) (off : BitVec 4) (t0 : BitVec 8) (s : State) : Out :=
  .next (ldLocStep pr lsid size off t0 s)
/-- LD.locacq (R212). -/
def execLdLocacq (pr : BitVec 2) (lsid : BitVec 5) (size : BitVec 3) (t0 : BitVec 8) (s : State) : Out :=
  .next (ldLocacqStep pr lsid size t0 s)

/-! ## Held effects on memory -/

/-- A held effect on global memory: it waits in the partition while its parts are checked, each reported under its own
address (R49, R208; log 62, DESIGN CHOICE). -/
def holdGlobal (s : State) (lsid : BitVec 5) (e : Eff) (g : Word) (ps : List (Nat × Nat)) : State :=
  let c := s.cur.1
  let t := s.cur.2.1
  let h := s.entry c t lsid.toNat s.cur.2.2 e ps.length []
  let src := s.src lsid
  ps.foldl (fun s p =>
    if !s.current src then s
    else sendAccess s
      { orig := .held src p.1, g := partAddr g p, asid := h.asid, user := h.user, core := some c, op := .probe p.2 true })
    (s.hold c t h)

/-- A store's checks and its place in the partition (R208, R213). -/
def storeTo (s : State) (lsid : BitVec 5) (z : Nat) (a : Word) (loc : Bool) (rel : BitVec 4) (d : List (Option Byte)) : State :=
  let l := some lsid.toNat
  let k := s.core s.cur.1
  if z = 64 && a.toNat % 64 != 0 then faultHere s 9 a l
  else if loc then
    if !localOk k s.user k.protbase.toNat k.protlimit.toNat a z true then faultHere s 8 a l
    else holdHere s lsid (.store a true rel d)
  else
    match badPart s a (parts64 a z) with
    | some g => faultHere s 8 g l
    | none => holdGlobal s lsid (.store a false rel d) a (parts64 a z)

def storeFire (pr : BitVec 2) (lsid : BitVec 5) (z : Nat) (loc : Bool) (rel : BitVec 4) (addr : Token → Word) (s : State) : State :=
  fireAB s pr fun o s =>
    if anyNull o.a 0 8 || allNull o.b z then arriveHere s lsid
    else storeTo s lsid z (addr o.a) loc rel (tokBytes o.b z)

def stStep (pr : BitVec 2) (lsid : BitVec 5) (size : BitVec 3) (off : BitVec 8) (s : State) : State :=
  storeFire pr lsid (sizeBytes size) false 0 (fun t => offAddr (v64 t 0) off.toInt (sizeBytes size)) s
def stRelStep (pr : BitVec 2) (lsid : BitVec 5) (size : BitVec 3) (scope : BitVec 4) (s : State) : State :=
  storeFire pr lsid (sizeBytes size) false scope (v64 · 0) s
def stLocStep (pr : BitVec 2) (lsid : BitVec 5) (size : BitVec 3) (off : BitVec 8) (s : State) : State :=
  storeFire pr lsid (sizeBytes size) true 0 (fun t => offAddr (v64 t 0) off.toInt (sizeBytes size)) s

/-- ST (R213). -/
def execSt (pr : BitVec 2) (lsid : BitVec 5) (size : BitVec 3) (off : BitVec 8) (s : State) : Out :=
  .next (stStep pr lsid size off s)
/-- ST.rel (R213, R199). -/
def execStRel (pr : BitVec 2) (lsid : BitVec 5) (size : BitVec 3) (scope : BitVec 4) (s : State) : Out :=
  .next (stRelStep pr lsid size scope s)
/-- ST.loc (R213, R176). -/
def execStLoc (pr : BitVec 2) (lsid : BitVec 5) (size : BitVec 3) (off : BitVec 8) (s : State) : Out :=
  .next (stLocStep pr lsid size off s)

/-- The bytes of an atomic lie in one 64-byte block (R209). -/
def amoAligned (a : Word) (n : Nat) : Bool := a.toNat % 64 + n ≤ 64

/-- A non-returning atomic, checked as a write (R208, R220). -/
def amoTo (s : State) (lsid : BitVec 5) (n : Nat) (a : Word) (loc : Bool) (e : Eff) : State :=
  let l := some lsid.toNat
  let k := s.core s.cur.1
  if !amoAligned a n then faultHere s 9 a l
  else if loc then
    if !localOk k s.user k.protbase.toNat k.protlimit.toNat a n true then faultHere s 8 a l else holdHere s lsid e
  else if !addrOk s (s.norm a) then faultHere s 8 a l
  else holdGlobal s lsid e a [(0, n)]

/-- `ord` is LOC and two order bits: bit 1 is release (R71). -/
def ordLoc (ord : BitVec 3) : Bool := ord.getLsbD 2
def ordRel (ord : BitVec 3) : Bool := ord.getLsbD 1
/-- The scope of an atomic's release; 0 where it is none (R71, R199). -/
def amoRel (scope ord : BitVec 3) : BitVec 4 := if ordRel ord then scope.zeroExtend 4 else 0

def amoNr (fn : BitVec 4) (wide : Bool) (pr : BitVec 2) (lsid : BitVec 5) (scope ord : BitVec 3) (off : BitVec 8) (s : State) : State :=
  fireAB s pr fun o s =>
    let n := amoBytes wide
    if anyNull o.a 0 8 || anyNull o.b 0 n then arriveHere s lsid
    else
      let a := offAddr (v64 o.a 0) off.toInt n
      amoTo s lsid n a (ordLoc ord) (.amo a (ordLoc ord) fn wide (.ofNat 128 o.b.pay.toNat) (amoRel scope ord))

def amoVec (fn : BitVec 4) (pr : BitVec 2) (lsid : BitVec 5) (scope ord : BitVec 3) (off : BitVec 8) (s : State) : State :=
  fireAB s pr fun o s =>
    if anyNull o.a 0 8 || allNull o.b 64 then arriveHere s lsid
    else
      let a := offAddr (v64 o.a 0) off.toInt 64
      amoTo s lsid 64 a (ordLoc ord) (.vamo a (ordLoc ord) fn o.b (amoRel scope ord))

/-- A null byte among those an atomic reads of B: ACAS reads 2n (R218). -/
def amoNullB (fn : BitVec 4) (wide : Bool) (t : Token) : Bool := anyNull t 0 (if fn == 9 then 2 * amoBytes wide else amoBytes wide)

/-- A returning atomic's operands have arrived: it is checked and sends its probe (R219, step 1). -/
def amoProbe (fn : BitVec 4) (wide : Bool) (pr : BitVec 2) (lsid : BitVec 5) (scope ord : BitVec 3) (t0 : BitVec 8) (s : State) : State :=
  fireAB s pr fun o s =>
    let n := amoBytes wide
    let a := v64 o.a 0
    let k := s.core s.cur.1
    let l := some lsid.toNat
    let src := s.src lsid
    let pend (probed : Bool) : PendAtomic :=
      { src := src, probed := probed, issued := false
        held := s.entry s.cur.1 s.cur.2.1 lsid.toNat s.cur.2.2
          (.amo a (ordLoc ord) fn wide (.ofNat 128 o.b.pay.toNat) (amoRel scope ord)) 0 [] }
    if anyNull o.a 0 8 || amoNullB fn wide o.b then send1 s t0 (nullTok 0)
    else if !amoAligned a n then faultHere s 9 a l
    else if ordLoc ord then
      if !localOk k s.user k.protbase.toNat k.protlimit.toNat a n true then faultHere s 8 a l
      else s.onBlock s.cur.1 s.cur.2.1 fun b => { b with atomic := some (pend true) }
    else if !addrOk s (s.norm a) then faultHere s 8 a l
    else
      let s := s.onBlock s.cur.1 s.cur.2.1 fun b => { b with atomic := some (pend false) }
      sendAccess s { orig := .atomicProbe src, g := a, asid := k.asid, user := s.user, core := some s.cur.1, op := .probe n true }

/-- The conditions of R53 and R219 for the issue of a block's returning atomic. -/
def mayIssue (s : State) (c : Nat) (b : Block) (a : PendAtomic) : Bool :=
  a.probed && !a.issued && b.outst.isEmpty && b.early.isEmpty && b.doubt.isNone && b.late.isNone &&
  (b.held.all fun h => h.need == 0) &&
  (b.instrs.all fun (_, sl) => !(hasLsid sl.word && lsidOf sl.word < a.src.lsid) || sl.fired || voidSlot sl) &&
  sbRoom (s.core c) ((b.held.filter fun h => takesRoom h.eff).length + 1) && cmdRoom (s.strand c a.src.strand) b

/-- The returning atomic issues (R219, steps 2-4): the block is irrevocable. -/
def amoIssue (s : State) (a : PendAtomic) (b : Block) : State :=
  let c := s.cur.1
  let t := s.cur.2.1
  let s := releaseHeld s c t b
  let s := releaseOne s c t b (some a.src) a.held
  s.onBlock c t fun b => { b with
    held := []
    irrev := true
    atomic := some { a with issued := true }
    outst := b.outst ++ [newOutst a.src.idx a.src.lsid 0 1 [] none] }

/-- A returning atomic (R219): its probe when the operands arrive, its issue when the block allows it. -/
def amoRet (fn : BitVec 4) (wide : Bool) (pr : BitVec 2) (lsid : BitVec 5) (scope ord : BitVec 3) (t0 : BitVec 8) (s : State) : State :=
  match s.curBlock with
  | none => s
  | some b =>
    match b.atomic with
    | some a => if a.src.idx == s.cur.2.2 && mayIssue s s.cur.1 b a then amoIssue s a b else s
    | none => amoProbe fn wide pr lsid scope ord t0 s

/-- AADD, returning (R218, R219). -/
def execAaddRet (wide : BitVec 1) (pr : BitVec 2) (lsid : BitVec 5) (scope : BitVec 3) (ord : BitVec 3) (t0 : BitVec 8) (s : State) : Out :=
  .next (amoRet 0 (wide == 1) pr lsid scope ord t0 s)
/-- AADD, not returning (R218, R220). -/
def execAaddNr (wide : BitVec 1) (pr : BitVec 2) (lsid : BitVec 5) (scope : BitVec 3) (ord : BitVec 3) (off : BitVec 8) (s : State) : Out :=
  .next (amoNr 0 (wide == 1) pr lsid scope ord off s)
/-- AAND, returning (R218, R219). -/
def execAandRet (wide : BitVec 1) (pr : BitVec 2) (lsid : BitVec 5) (scope : BitVec 3) (ord : BitVec 3) (t0 : BitVec 8) (s : State) : Out :=
  .next (amoRet 1 (wide == 1) pr lsid scope ord t0 s)
/-- AAND, not returning (R218, R220). -/
def execAandNr (wide : BitVec 1) (pr : BitVec 2) (lsid : BitVec 5) (scope : BitVec 3) (ord : BitVec 3) (off : BitVec 8) (s : State) : Out :=
  .next (amoNr 1 (wide == 1) pr lsid scope ord off s)
/-- AOR, returning (R218, R219). -/
def execAorRet (wide : BitVec 1) (pr : BitVec 2) (lsid : BitVec 5) (scope : BitVec 3) (ord : BitVec 3) (t0 : BitVec 8) (s : State) : Out :=
  .next (amoRet 2 (wide == 1) pr lsid scope ord t0 s)
/-- AOR, not returning (R218, R220). -/
def execAorNr (wide : BitVec 1) (pr : BitVec 2) (lsid : BitVec 5) (scope : BitVec 3) (ord : BitVec 3) (off : BitVec 8) (s : State) : Out :=
  .next (amoNr 2 (wide == 1) pr lsid scope ord off s)
/-- AXOR, returning (R218, R219). -/
def execAxorRet (wide : BitVec 1) (pr : BitVec 2) (lsid : BitVec 5) (scope : BitVec 3) (ord : BitVec 3) (t0 : BitVec 8) (s : State) : Out :=
  .next (amoRet 3 (wide == 1) pr lsid scope ord t0 s)
/-- AXOR, not returning (R218, R220). -/
def execAxorNr (wide : BitVec 1) (pr : BitVec 2) (lsid : BitVec 5) (scope : BitVec 3) (ord : BitVec 3) (off : BitVec 8) (s : State) : Out :=
  .next (amoNr 3 (wide == 1) pr lsid scope ord off s)
/-- AMIN, returning (R218, R219). -/
def execAminRet (wide : BitVec 1) (pr : BitVec 2) (lsid : BitVec 5) (scope : BitVec 3) (ord : BitVec 3) (t0 : BitVec 8) (s : State) : Out :=
  .next (amoRet 4 (wide == 1) pr lsid scope ord t0 s)
/-- AMIN, not returning (R218, R220). -/
def execAminNr (wide : BitVec 1) (pr : BitVec 2) (lsid : BitVec 5) (scope : BitVec 3) (ord : BitVec 3) (off : BitVec 8) (s : State) : Out :=
  .next (amoNr 4 (wide == 1) pr lsid scope ord off s)
/-- AMAX, returning (R218, R219). -/
def execAmaxRet (wide : BitVec 1) (pr : BitVec 2) (lsid : BitVec 5) (scope : BitVec 3) (ord : BitVec 3) (t0 : BitVec 8) (s : State) : Out :=
  .next (amoRet 5 (wide == 1) pr lsid scope ord t0 s)
/-- AMAX, not returning (R218, R220). -/
def execAmaxNr (wide : BitVec 1) (pr : BitVec 2) (lsid : BitVec 5) (scope : BitVec 3) (ord : BitVec 3) (off : BitVec 8) (s : State) : Out :=
  .next (amoNr 5 (wide == 1) pr lsid scope ord off s)
/-- AMINU, returning (R218, R219). -/
def execAminuRet (wide : BitVec 1) (pr : BitVec 2) (lsid : BitVec 5) (scope : BitVec 3) (ord : BitVec 3) (t0 : BitVec 8) (s : State) : Out :=
  .next (amoRet 6 (wide == 1) pr lsid scope ord t0 s)
/-- AMINU, not returning (R218, R220). -/
def execAminuNr (wide : BitVec 1) (pr : BitVec 2) (lsid : BitVec 5) (scope : BitVec 3) (ord : BitVec 3) (off : BitVec 8) (s : State) : Out :=
  .next (amoNr 6 (wide == 1) pr lsid scope ord off s)
/-- AMAXU, returning (R218, R219). -/
def execAmaxuRet (wide : BitVec 1) (pr : BitVec 2) (lsid : BitVec 5) (scope : BitVec 3) (ord : BitVec 3) (t0 : BitVec 8) (s : State) : Out :=
  .next (amoRet 7 (wide == 1) pr lsid scope ord t0 s)
/-- AMAXU, not returning (R218, R220). -/
def execAmaxuNr (wide : BitVec 1) (pr : BitVec 2) (lsid : BitVec 5) (scope : BitVec 3) (ord : BitVec 3) (off : BitVec 8) (s : State) : Out :=
  .next (amoNr 7 (wide == 1) pr lsid scope ord off s)
/-- AXCHG, returning (R218, R219). -/
def execAxchgRet (wide : BitVec 1) (pr : BitVec 2) (lsid : BitVec 5) (scope : BitVec 3) (ord : BitVec 3) (t0 : BitVec 8) (s : State) : Out :=
  .next (amoRet 8 (wide == 1) pr lsid scope ord t0 s)
/-- AXCHG, not returning (R218, R220). -/
def execAxchgNr (wide : BitVec 1) (pr : BitVec 2) (lsid : BitVec 5) (scope : BitVec 3) (ord : BitVec 3) (off : BitVec 8) (s : State) : Out :=
  .next (amoNr 8 (wide == 1) pr lsid scope ord off s)
/-- ACAS (R218, R219). -/
def execAcas (wide : BitVec 1) (pr : BitVec 2) (lsid : BitVec 5) (scope : BitVec 3) (ord : BitVec 3) (t0 : BitVec 8) (s : State) : Out :=
  .next (amoRet 9 (wide == 1) pr lsid scope ord t0 s)
/-- AFADD, returning (R218, R219). -/
def execAfaddRet (pr : BitVec 2) (lsid : BitVec 5) (scope : BitVec 3) (ord : BitVec 3) (t0 : BitVec 8) (s : State) : Out :=
  .next (amoRet 10 false pr lsid scope ord t0 s)
/-- AFADD, not returning (R218, R220). -/
def execAfaddNr (pr : BitVec 2) (lsid : BitVec 5) (scope : BitVec 3) (ord : BitVec 3) (off : BitVec 8) (s : State) : Out :=
  .next (amoNr 10 false pr lsid scope ord off s)
/-- AorV (R221). -/
def execAorV (pr : BitVec 2) (lsid : BitVec 5) (scope : BitVec 3) (ord : BitVec 3) (off : BitVec 8) (s : State) : Out :=
  .next (amoVec 0 pr lsid scope ord off s)
/-- AandV (R221). -/
def execAandV (pr : BitVec 2) (lsid : BitVec 5) (scope : BitVec 3) (ord : BitVec 3) (off : BitVec 8) (s : State) : Out :=
  .next (amoVec 1 pr lsid scope ord off s)
/-- AaddV32 (R221). -/
def execAaddV32 (pr : BitVec 2) (lsid : BitVec 5) (scope : BitVec 3) (ord : BitVec 3) (off : BitVec 8) (s : State) : Out :=
  .next (amoVec 2 pr lsid scope ord off s)

/-! ## FENCE, INV, CLEAN -/

/-- A FENCE is a held effect that has arrived when it fires (R222): kind 0 acquire, 1 release, 2 both. -/
def fenceStep (kind : Nat) (pr : BitVec 2) (lsid : BitVec 5) (scope : BitVec 3) (s : State) : State :=
  fire0 s pr fun _ s => holdHere s lsid (.fence kind scope)
/-- INV (R223). -/
def invStep (pr : BitVec 2) (lsid : BitVec 5) (s : State) : State :=
  fireAB s pr fun o s =>
    if anyNull o.a 0 8 || anyNull o.b 0 8 then arriveHere s lsid else holdHere s lsid (.inv (v64 o.a 0) (v64 o.b 0))
/-- CLEAN checks the fields of its address only (R224). -/
def cleanStep (pr : BitVec 2) (lsid : BitVec 5) (s : State) : State :=
  fireAB s pr fun o s =>
    let a := v64 o.a 0
    if anyNull o.a 0 8 || anyNull o.b 0 8 then arriveHere s lsid
    else if !fieldsOk (s.norm a) then faultHere s 8 a (some lsid.toNat)
    else holdHere s lsid (.clean a (v64 o.b 0))

/-- FENCE.acq (R222). -/
def execFenceAcq (pr : BitVec 2) (lsid : BitVec 5) (scope : BitVec 3) (s : State) : Out := .next (fenceStep 0 pr lsid scope s)
/-- FENCE.rel (R222). -/
def execFenceRel (pr : BitVec 2) (lsid : BitVec 5) (scope : BitVec 3) (s : State) : Out := .next (fenceStep 1 pr lsid scope s)
/-- FENCE.ar (R222). -/
def execFenceAr (pr : BitVec 2) (lsid : BitVec 5) (scope : BitVec 3) (s : State) : Out := .next (fenceStep 2 pr lsid scope s)
/-- INV (R223). -/
def execInv (pr : BitVec 2) (lsid : BitVec 5) (s : State) : Out := .next (invStep pr lsid s)
/-- CLEAN (R224). -/
def execClean (pr : BitVec 2) (lsid : BitVec 5) (s : State) : Out := .next (cleanStep pr lsid s)

end Sys2Proof.Machine
end

