-- ==== Sys2Proof/Machine/TileHome.lean ====
section
/-! DEFINITION. The version tables (chapter 11): homes, entries, storage, waiters, seals and reclamation. -/

namespace Sys2Proof.Machine

/-! ## Names and entries -/

/-- Home slice of a tile (R226). -/
def homeOf (asid : BitVec 16) (tn : BitVec 32) : Nat :=
  let k := asid.toNat * 2^32 + tn.toNat
  (k ^^^ (k / 2^8) ^^^ (k / 2^16) ^^^ (k / 2^24) ^^^ (k / 2^32) ^^^ (k / 2^40)) % 256
def homeRef (r : Ref) : Nat := homeOf r.asid r.tn

/-- The 64 bits of a reference (R248). -/
def refBits (r : Ref) : Word := .ofNat 64 (r.tn.toNat * 2^32 + r.ver.toNat)
def refOf (asid : BitVec 16) (x : Word) : Ref := ⟨asid, .ofNat 32 (bits x 32 32), .ofNat 32 (bits x 0 32)⟩

def Ver.named (e : Ver) (r : Ref) : Bool := e.asid == r.asid && e.tn == r.tn && e.ver == r.ver
def Ver.ofTile (e : Ver) (asid : BitVec 16) (tn : BitVec 32) : Bool := e.asid == asid && e.tn == tn
def Ver.ref (e : Ver) : Ref := ⟨e.asid, e.tn, e.ver⟩

def findVer (s : State) (r : Ref) : Option Ver := (s.slice (homeRef r)).vers.find? fun e => e.named r
def findTile (s : State) (asid : BitVec 16) (tn : BitVec 32) : Option TileE :=
  (s.slice (homeOf asid tn)).tiles.find? fun e => e.asid == asid && e.tn == tn
def hwmOf (s : State) (asid : BitVec 16) (tn : BitVec 32) : Nat := match findTile s asid tn with | some t => t.hwm | none => 0

/-- Change the entry of a version. -/
def onVer (s : State) (r : Ref) (f : Ver → Ver) : State :=
  s.onSlice (homeRef r) fun k => { k with vers := k.vers.map fun e => if e.named r then f e else e }
/-- Change a tile entry. -/
def onTile (s : State) (asid : BitVec 16) (tn : BitVec 32) (f : TileE → TileE) : State :=
  s.onSlice (homeOf asid tn) fun k => { k with tiles := k.tiles.map fun e => if e.asid == asid && e.tn == tn then f e else e }

/-- Entries in use and waiters of a slice (R227). -/
def entriesUsed (k : Slice) : Nat := k.vers.length + k.tiles.length
def waitersUsed (k : Slice) : Nat :=
  (k.vers.map fun e => e.waiters.length).foldl (· + ·) 0 + (k.tiles.map fun e => e.waiters.length).foldl (· + ·) 0
def guardsUsed (k : Slice) : Nat := (k.vers.filter fun e => e.guard.isSome).length

/-- Allocate a tile entry with HWM 0 where the tile has none (R230); none when the table is full (R227). -/
def needTile (s : State) (asid : BitVec 16) (tn : BitVec 32) : Option State :=
  if (findTile s asid tn).isSome then some s
  else if 8192 ≤ entriesUsed (s.slice (homeOf asid tn)) then none
  else some (s.onSlice (homeOf asid tn) fun k => { k with tiles := k.tiles ++ [⟨asid, tn, 0, false, []⟩] })

/-! ## Storage (R235) -/

/-- Granules of a size. -/
def granules (size : Nat) : Nat := (size + 127) / 128

/-- Gaps of at least `n` between used ranges in `[from, stop)`; the ranges rise. -/
def gapsFrom (n stop : Nat) : Nat → List (Nat × Nat) → List (Nat × Nat)
  | a, [] => if a + n ≤ stop then [(a, stop)] else []
  | a, (u, l) :: us => if a + n ≤ u then (a, u) :: gapsFrom n stop (max a (u + l)) us else gapsFrom n stop (max a (u + l)) us

/-- A range put into a rising list. -/
def insertRange (r : Nat × Nat) : List (Nat × Nat) → List (Nat × Nat)
  | [] => [r]
  | x :: xs => if r.1 ≤ x.1 then r :: x :: xs else x :: insertRange r xs
def sortRanges (rs : List (Nat × Nat)) : List (Nat × Nat) := rs.foldr insertRange []

/-- Ways in which the version table may place granules: tile ways that are not draining (R184, R185). -/
def tileWays (k : Slice) : BitVec 16 := k.tile &&& ~~~k.flush

/-- A free run of `n` granules in a slice's tile ways; which one is free. -/
def runInWays (s : State) (k n : Nat) : Option Nat × State :=
  let sl := s.slice k
  let closed := ((List.range 16).filter fun w => !(tileWays sl).getLsbD w).map fun w => (w * 2048, 2048)
  let used := (sl.vers.filter fun e => !e.hbm && e.grans != 0).map fun e => (e.at_, e.grans)
  let gaps := gapsFrom n 32768 0 (sortRanges (closed ++ used))
  if gaps.isEmpty then (none, s)
  else
    let (i, s) := s.drawBelow gaps.length
    let g := gaps.getD i (0, 0)
    let (o, s) := s.drawBelow (g.2 - g.1 - n + 1)
    (some (g.1 + o), s)

/-- A free run of `n` granules in a die's tile pool; which one is free. -/
def runInPool (s : State) (die n : Nat) : Option Nat × State :=
  let used := (List.range 64).flatMap fun j =>
    ((s.slice (die * 64 + j)).vers.filter fun e => e.hbm && e.grans != 0).map fun e => (e.at_, e.grans)
  let gaps := gapsFrom n (2^27) 0 (sortRanges used)
  if gaps.isEmpty then (none, s)
  else
    let (i, s) := s.drawBelow gaps.length
    let g := gaps.getD i (0, 0)
    let (o, s) := s.drawBelow (g.2 - g.1 - n + 1)
    (some (g.1 + o), s)

/-- Placement of a new version: where and whether in HBM; none when there is no room (R235, R254). -/
def place (s : State) (k size : Nat) (hbm : Bool) : Option (Nat × Bool) × State :=
  let n := granules size
  if n = 0 then (some (0, hbm), s)
  else
    let (w, s) := if hbm then (none, s) else runInWays s k n
    match w with
    | some a => (some (a, false), s)
    | none =>
      let (p, s) := runInPool s (k / 64) n
      (p.map fun a => (a, true), s)

/-- A version's storage leaves the tile pool: HBM keeps what it held (R188). -/
def leavePool (s : State) (e : Ver) : State :=
  if e.hbm && e.grans != 0 then
    let a := poolAddr (homeRef e.ref / 64) e.at_
    { s with
      mem := e.bytes.foldl (fun m c => memPut m (a + c.1) c.2) (memClear s.mem a (128 * e.grans))
      undo := s.undo.filter fun l => !(a ≤ 128 * l.1 && 128 * l.1 < a + 128 * e.grans) }
  else s

/-- A version's storage moves into tile ways, if a run is free (R235, R264). -/
def moveToWays (s : State) (r : Ref) : State :=
  match findVer s r with
  | some e =>
    if !e.hbm then s
    else if e.grans = 0 then onVer s r fun e => { e with hbm := false }
    else match runInWays s (homeRef r) e.grans with
      | (some a, s) => onVer (leavePool s e) r fun e => { e with hbm := false, at_ := a }
      | (none, s) => s
  | none => s

/-- A version's storage moves to the tile pool, if a run is free; a pinned one stays (R264). -/
def moveToPool (s : State) (r : Ref) : State :=
  match findVer s r with
  | some e =>
    if e.hbm || e.pinned then s
    else match runInPool s (homeRef r / 64) e.grans with
      | (some a, s) => onVer s r fun e => { e with hbm := true, at_ := a }
      | (none, s) => s
  | none => s

/-- A pinned version in HBM moves into tile ways when a run becomes free (R235); one that is placed in HBM while a run is free
moves in the action that places it (log 76, DESIGN CHOICE). -/
def pullPinned (s : State) (k : Nat) : State :=
  ((s.slice k).vers.filter fun e => e.pinned && e.hbm && e.grans != 0).foldl (fun s e => moveToWays s e.ref) s

/-! ## Reading a version -/

/-- The entry whose storage a version reads: its owner when it is ALIASED (R236). -/
def ownerOf (s : State) (e : Ver) : Ver :=
  if e.state == .aliased then (findVer s ⟨e.asid, e.tn, e.aver⟩).getD e else e

/-- Bytes `[off, off+n)` of a version: zero where nothing was written (R254). -/
def verBytes (s : State) (e : Ver) (off n : Nat) : List Byte := memBytes (ownerOf s e).bytes off n

def stateCode : VState → Nat
  | .free => 0 | .filling => 1 | .sealed_ => 2 | .aliased => 3 | .poisoned => 4 | .retiring => 5

/-- TWAIT's status (R260). -/
def statusTok (e : Ver) : Token :=
  dTok (e.size % 2^28 + 2^28 * e.fmt.toNat + 2^32 * stateCode e.state + (if e.gskip then 2^35 else 0) + (if e.fin then 2^36 else 0))

/-- A load's token of `z` bytes (R212). -/
def readTok (z : Nat) (d : List Byte) : Token := if z = 64 then bytesTok d else dTok (leNat d)

/-- A guard's verdict: SET when any aligned 8-byte word of its bytes is not zero, or it is too large (R238). The bytes of a last
word that SIZE cuts short count (log 76, DESIGN CHOICE). -/
def guardSet (size : Nat) (d : List Byte) : Bool := 4096 < size || d.any (· != 0)

def ansCause : Answer → Nat | .absent => 0xA | .poisoned => 0xD | .readable => 0xB

/-- The notice that a subscription gets (R241, R345). -/
def noticeFlit (s : State) (node : Nat) (r : Ref) (a : Answer) (e : Option Ver) : Flit :=
  .notice node r a ((e.map (·.fmt)).getD 0) ((e.map (·.size)).getD 0) ((e.map (·.sealTime)).getD s.stamp)

/-- A read of a proxy that is SEALED goes to the source home over the link (R242). -/
def readSource (s : State) (e : Ver) (off z : Nat) (use : TagUse) : State :=
  let (tag, s) := newTag s use
  sendFlit s (.read e.node tag (.tile e.ref off) z (match use with | .tld src _ => some (src.core, src.lsid) | _ => none))

/-- How an entry that is not FILLING answers. -/
def ansOf (e : Ver) : Answer :=
  match e.state with
  | .sealed_ | .aliased => .readable
  | .poisoned => .poisoned
  | _ => .absent

/-- What a watch of a version finds now, none while it waits (R239). -/
def watchNow (s : State) (r : Ref) : Option Answer :=
  match findVer s r with
  | some e => if e.state == .filling then none else some (ansOf e)
  | none => if hwmOf s r.asid r.tn < r.ver.toNat then none else some .absent

/-- One reference more on an entry that is not permanent (R232), for the fold unit: one that holds 0xFFE becomes permanent
(log 76, DESIGN CHOICE). -/
def addRef (s : State) (r : Ref) : State := onVer s r fun e => { e with refs := if e.refs == 0xFFF then 0xFFF else e.refs + 1 }

/-- The versions that a fold reads: staging and base (R355). -/
def foldStage (result : Ref) (staging : BitVec 32) : Ref := ⟨result.asid, staging, result.ver⟩
def foldBase (result : Ref) : Ref := ⟨result.asid, result.tn, result.ver - 1⟩

/-- A fold of this result and staging tile is about to be performed. -/
def foldDue (s : State) (result : Ref) (staging : BitVec 32) : Bool :=
  s.due.any fun p => match p with | .fold x g _ _ => x == result && g == staging | _ => false

/-- The waiters of version `r` that `hit` picks go, parked or about to be tried again. -/
def takeWaiters (s : State) (r : Ref) (hit : WaitFor → Bool) : State :=
  let f (ws : List Waiter) := ws.filter fun w => !(w.ver == r.ver && hit w.who)
  let s := onTile (onVer s r fun x => { x with waiters := f x.waiters }) r.asid r.tn fun x => { x with waiters := f x.waiters }
  { s with due := s.due.filter fun p => match p with | .watchRetry q who _ _ => !(q == r && hit who) | _ => true }

/-- A watch of the fold unit for this result and staging tile. -/
def foldWatch (result : Ref) (staging : BitVec 32) : WaitFor → Bool
  | .fold r g _ => r == result && g == staging
  | _ => false

/-- A fold that cannot be made ends; it watches no longer (R356). -/
def endFold (s : State) (result : Ref) (staging : BitVec 32) (nr : Nat) : State :=
  let hit := foldWatch result staging
  (takeWaiters (takeWaiters s (foldStage result staging) hit) (foldBase result) hit).emit (.fold result staging nr 0)

/-- A watch of the fold unit is answered. When both its versions are readable it takes a reference on each, in the action of
the answer; one that is not ends the fold (R356). -/
def answerFold (s : State) (r : Ref) (a : Answer) (result : Ref) (staging : BitVec 32) (nr : Nat) : State :=
  let stage := foldStage result staging
  let base := foldBase result
  if foldDue s result staging then s
  else if a != .readable then endFold s result staging nr
  else match watchNow s (if r == stage then base else stage) with
    | none => s
    | some .readable => (addRef (addRef s stage) base).emit (.fold result staging nr 2)
    | some _ => endFold s result staging nr

/-- A read's answer goes from the home of `r` to its strand. -/
def backTo (s : State) (r : Ref) (src : Src) (x : Ret) : State := s.emit (.resultReturn (some (homeRef r)) src x)

/-- A TLD or TWAIT of a sealed version acquires its seal: one of SYSTEM scope orders accesses to other devices (R201, R204). -/
def noteSeal (s : State) (src : Src) (e : Ver) : State :=
  if (e.system || (ownerOf s e).system) && s.current src then
    s.onBlock src.core src.strand fun b => { b with outst := b.outst.map fun o =>
      if o.idx == src.idx then { o with sync := true } else o }
  else s

/-- An answer to one who waits for version `r`; `e` is its entry where it exists (R239, R240). -/
def answer (s : State) (r : Ref) (e : Option Ver) (a : Answer) (who : WaitFor) : State :=
  let size := (e.map (·.size)).getD 0
  match who with
  | .read src off z =>
    match a, e with
    | .readable, some e =>
      if e.size < off + z then backTo s r src (.cause 0xB (refBits r))
      else if (ownerOf s e).proxy then readSource (noteSeal s src e) (ownerOf s e) off z (.tld src z)
      else backTo (noteSeal s src e) r src (.tok (readTok z (verBytes s e off z)))
    | a, _ => backTo s r src (.cause (ansCause a) (refBits r))
  | .status src =>
    match a, e with
    | .readable, some e => backTo (noteSeal s src e) r src (.tok (statusTok e))
    | a, _ => backTo s r src (.cause (ansCause a) (refBits r))
  | .engine k id => s.emit (.engineSourceAnswer k id a)
  | .link p id => s.emit (.linkSourceAnswer p id a)
  | .peer node tag off z =>
    match a, e with
    | .readable, some e =>
      if e.size < off + z || (ownerOf s e).proxy then sendFlit s (.fail node tag r.asid 0xB (refBits r))
      else answerRead s node tag r.asid (verBytes s e off z)
    | a, _ => sendFlit s (.fail node tag r.asid (ansCause a) (refBits r))
  | .guard owner =>
    match a, e with
    | .readable, some e =>
      if (ownerOf s e).proxy && e.size ≤ 4096 then readSource s (ownerOf s e) 0 e.size (.guard owner [])
      else s.emit (.guardResult owner (guardSet e.size (if e.size ≤ 4096 then verBytes s e 0 e.size else [])))
    | _, _ => s.emit (.guardResult owner true)
  | .larder k gen => s.emit (.autoInputSeal k gen a size ((e.map (·.fin)).getD false))
  | .nextl => s.emit (.launchAccept r.asid)
  | .prereq ver p => s.emit (.prerequisiteAnswer r.asid ver p a s.timebase.toNat)
  | .fold result staging nr => answerFold s r a result staging nr
  | .sub node _ => sendFlit s (noticeFlit s node r a e)

/-- Answer all waiters of a version that has become final, in list order (R239); its notices have left (R241). -/
def answerAll (s : State) (r : Ref) : State :=
  match findVer s r with
  | none => s
  | some e =>
    let s := onVer s r fun e => { e with waiters := [], subscribed := false }
    e.waiters.foldl (fun s w => answer s r (some e) (ansOf e) w.who) s

/-! ## Sealing and reclaiming (R234, R237, R238, R240) -/

/-- The predecessor a guard names: none where it was a proxy that an ABSENT notice has freed (log 76, DESIGN CHOICE). -/
def predOf (s : State) (e : Ver) : Option Ver :=
  match e.guard with
  | some g => g.pver.bind fun v => findVer s ⟨e.asid, e.tn, v⟩
  | none => none

/-- ready(e) (R237, R238); only its notice changes a proxy (R242). -/
def ready (s : State) (e : Ver) : Bool :=
  e.state == .filling && !e.proxy && e.pend == 0 &&
  (!e.fin || (s.slice (homeRef e.ref)).vers.all fun x => !(x.ofTile e.asid e.tn && x.ver.toNat < e.ver.toNat && x.state == .filling)) &&
  (match e.guard with
   | none => true
   | some g => g.status.isSome && (match predOf s e with | some p => p.state != .filling | none => true))

/-- One less that depends on an entry. -/
def dropXref (s : State) (r : Ref) : State := onVer s r fun e => { e with xref := e.xref - 1 }

/-- The seal of an entry that is ready (R238, R240), of SYSTEM scope where the version is subscribed or a fill came over a link
(R201). An alias that it makes of an owner whose XREF is 255 takes that to 256 (log 76, DESIGN CHOICE). -/
def sealVer (s : State) (e : Ver) : State :=
  let r := e.ref
  let p := predOf s e
  let set := match e.guard with | some g => g.status == some true | none => false
  let s := onVer s r fun e => { e with system := e.system || e.subscribed }
  let s := if !set then onVer s r fun e => { e with state := .sealed_ }
    else
      let s := onVer (leavePool s e) r fun e => { e with gskip := true, bytes := [], grans := 0, hbm := false }
      match p with
      | none => onVer s r fun e => { e with state := .sealed_, size := 0 }
      | some p =>
        if p.state == .poisoned then onVer s r fun e => { e with state := .poisoned }
        else
          let o := ownerOf s p
          let s := onVer s r fun e => { e with state := .aliased, aver := o.ver, size := o.size, fmt := o.fmt }
          onVer s o.ref fun o => { o with xref := o.xref + 1 }
  let s := match p with | some p => dropXref s p.ref | none => s
  let s := onVer s r fun e => { e with guard := none, sealTime := s.stamp }
  answerAll s r

/-- The entry may be reclaimed (R234). -/
def reclaimable (e : Ver) : Bool :=
  (e.state == .sealed_ || e.state == .aliased || e.state == .poisoned) && e.refs == 0 && e.xref == 0 && e.waiters.isEmpty

/-- Reclamation (R234); a proxy's device sends one decrement to its source (R242). -/
def reclaim (s : State) (e : Ver) : State :=
  let s := leavePool (if e.state == .aliased then dropXref s ⟨e.asid, e.tn, e.aver⟩ else s) e
  let s := s.onSlice (homeRef e.ref) fun k => { k with vers := k.vers.filter fun x => !x.named e.ref }
  let s := if e.fin then onTile s e.asid e.tn fun t => { t with ended := true } else s
  if e.proxy then sendFlit s (.dec e.node e.ref) else s

/-- A tile entry with no version, no waiter and ENDED is freed (R230). -/
def freeTile (s : State) (asid : BitVec 16) (tn : BitVec 32) : State :=
  s.onSlice (homeOf asid tn) fun k =>
    if k.vers.any (·.ofTile asid tn) then k
    else { k with tiles := k.tiles.filter fun t => !(t.asid == asid && t.tn == tn && t.ended && t.waiters.isEmpty) }

/-- The checks that follow each action on a tile, one after another until none applies (R237, R234, R240); then pinned versions
take the runs that have become free (R235). -/
def settleFrom (s : State) (asid : BitVec 16) (tn : BitVec 32) : Nat → State
  | 0 => s
  | n + 1 =>
    let vs := (s.slice (homeOf asid tn)).vers.filter (·.ofTile asid tn)
    match vs.find? (ready s) with
    | some e => settleFrom (sealVer s e) asid tn n
    | none =>
      match vs.find? reclaimable with
      | some e => settleFrom (reclaim s e) asid tn n
      | none => pullPinned (freeTile s asid tn) (homeOf asid tn)

def settle (s : State) (asid : BitVec 16) (tn : BitVec 32) : State :=
  settleFrom s asid tn (2 * ((s.slice (homeOf asid tn)).vers.filter (·.ofTile asid tn)).length + 2)

def settleRef (s : State) (r : Ref) : State := settle s r.asid r.tn

/-- A watch of a version is cancelled, and its waiter entry is freed. -/
def dropWatch (s : State) (r : Ref) (hit : WaitFor → Bool) : State := settleRef (takeWaiters s r hit) r

/-- An entry becomes POISONED (R236): its guard goes with it, and its waiters are answered. Its storage stays until it is
reclaimed (R234). -/
def poisonOne (s : State) (r : Ref) : State :=
  match findVer s r with
  | none => s
  | some e =>
    if e.state == .poisoned then s
    else
      let s := match predOf s e with | some p => dropXref s p.ref | none => s
      let s := onVer s r fun e => { e with state := .poisoned, guard := none, bytes := [], sealTime := s.stamp }
      let s := match e.guard with | some g => dropWatch s g.ref (· == .guard r) | none => s
      let s := if e.state == .aliased then dropXref s ⟨e.asid, e.tn, e.aver⟩ else s
      answerAll s r

/-- A version becomes POISONED, and with it every entry that shares its storage (R236). -/
def poisonVer (s : State) (r : Ref) : State :=
  match findVer s r with
  | none => s
  | some e =>
    let o := ownerOf s e
    let sharing := (s.slice (homeRef r)).vers.filter fun x => x.ofTile r.asid r.tn && x.state == .aliased && x.aver == o.ver
    settleRef (poisonOne (sharing.foldl (fun s x => poisonOne s x.ref) s) o.ref) r

/-! ## Creation (R231, R254) -/

/-- Waiters of the tile entry for a version that is created move to it; those for versions below it that do not
exist are answered TILE_ABSENT (R236). Each subscription that moves holds a reference (R243), at most up to 0xFFE (log 76,
DESIGN CHOICE). -/
def moveWaiters (s : State) (r : Ref) : State :=
  match findTile s r.asid r.tn with
  | none => s
  | some t =>
    let mine := t.waiters.filter fun w => w.ver == r.ver
    let gone := t.waiters.filter fun w => w.ver.toNat < r.ver.toNat && (findVer s ⟨r.asid, r.tn, w.ver⟩).isNone
    let rest := t.waiters.filter fun w => w.ver != r.ver && !(w.ver.toNat < r.ver.toNat && (findVer s ⟨r.asid, r.tn, w.ver⟩).isNone)
    let subs := (mine.filter fun w => match w.who with | .sub .. => true | _ => false).length
    let s := onTile s r.asid r.tn fun t => { t with waiters := rest }
    let s := onVer s r fun e => { e with
      waiters := e.waiters ++ mine
      subscribed := e.subscribed || subs != 0
      refs := if e.refs == 0xFFF then 0xFFF else min 0xFFE (e.refs + subs) }
    gone.foldl (fun s w => answer s ⟨r.asid, r.tn, w.ver⟩ none .absent w.who) s

/-- A new entry is put into the table, with its tile entry (R231, R227): the cause where it cannot be. -/
def addVer (s : State) (e : Ver) : Except Nat State :=
  if e.ver.toNat ≤ hwmOf s e.asid e.tn then .error 0xB
  else
    let k := s.slice (homeRef e.ref)
    let extra := if (findTile s e.asid e.tn).isSome then 1 else 2
    if 8192 < entriesUsed k + extra then .error 0xF
    else match needTile s e.asid e.tn with
      | none => .error 0xF
      | some s =>
        let s := onTile s e.asid e.tn fun t => { t with hwm := e.ver.toNat }
        .ok (s.onSlice (homeRef e.ref) fun k => { k with vers := k.vers ++ [e] })

/-- The entry that a creation asks for, before its placement. -/
def newVer (r : Ref) (d : NewDesc) : Ver :=
  { tn := r.tn, ver := r.ver, asid := r.asid, state := .filling, fmt := d.fmt, hbm := false, fin := false
    subscribed := false, pinned := d.pin, proxy := d.proxy.isSome, gskip := false, closed := false
    system := d.proxy.isSome, pend := d.pend, size := d.size
    refs := d.refs, xref := 0, guard := none, at_ := 0, grans := 0, aver := 0, waiters := []
    node := d.proxy.getD 0, sealTime := 0, bytes := [] }

/-- A version is created (R254): the cause where it is not. -/
def createVer (s : State) (r : Ref) (d : NewDesc) : Except Nat State :=
  if r.ver.toNat ≤ hwmOf s r.asid r.tn then .error 0xB
  else match place s (homeRef r) (if d.proxy.isSome then 0 else d.size) d.hbm with
    | (none, _) => .error 0xF
    | (some (a, hbm), s) =>
      let n := if d.proxy.isSome then 0 else granules d.size
      match addVer s { newVer r d with at_ := a, hbm := hbm, grans := n } with
      | .error c => .error c
      | .ok s => .ok (settleRef (moveWaiters s r) r)

/-! ## Fills and seals -/

/-- A fill of the bytes that are present, from `off` on (R236, R257): the cause it draws. A POISONED version discards
it. -/
def fillVer (s : State) (r : Ref) (off : Nat) (d : List (Option Byte)) : Option Nat × State :=
  let n := (d.filter Option.isSome).length
  match findVer s r with
  | none => (some 0xA, s)
  | some e =>
    if e.proxy then (some 0xB, s)
    else if e.state == .poisoned then (none, s)
    else if e.state != .filling || e.closed then (some 0xB, s)
    else if e.size < off + d.length then (some 0xB, s)
    else if e.pend < n then (some 0xC, s)
    else
      let s := onVer s r fun e => { e with bytes := memPutAll e.bytes off d, pend := e.pend - n }
      (none, settleRef s r)

/-- TSEAL and TSEAL.end (R237, R258). -/
def sealReq (s : State) (r : Ref) (fin arr : Bool) (size : Nat) : Option Nat × State :=
  match findVer s r with
  | none => (some 0xA, s)
  | some e =>
    let arrived := e.size - e.pend
    let n := if arr then arrived else size
    if e.proxy || e.state != .filling then (some 0xB, s)
    else if fin then
      if e.size < n || n < arrived then (some 0xC, s)
      else (none, settleRef (onVer s r fun e => { e with fin := true, pend := n - arrived, size := n }) r)
    else if e.size < n then (some 0xB, s)
    else (none, settleRef (onVer s r fun e => { e with closed := true, size := n, pend := 0, bytes := memClear e.bytes n (2^28) }) r)

/-! ## Waiting (R239, R243) -/

/-- A read that waits on a strand is a wait of R52; one that has parked is counted (R405). -/
def parkStrand (s : State) (who : WaitFor) (parked : Bool) : State :=
  let mark (src : Src) : State :=
    if s.current src then
      let s := setWait s src.core src.strand src.idx true
      if parked then s.perf src.core 11 (some src.strand) else s
    else s
  match who with
  | .read src _ _ => mark src
  | .status src => mark src
  | _ => s

def strandWaits : WaitFor → Bool | .read .. | .status _ => true | _ => false

/-- A refused read or watch is tried again after `delay` cycles (R239). -/
def retryLater (s : State) (r : Ref) (who : WaitFor) (delay : Nat) : State :=
  s.emit (if strandWaits who then .readRetry r who (s.cycle + delay) (min 8192 (2 * delay))
    else .watchRetry r who (s.cycle + delay) (min 8192 (2 * delay)))

/-- A read or watch of a version reaches its home: answered, parked, or refused when the waiter table is full, or for
a watch when it finds no tile entry (R230, R239). The read of an engine, a link or a peer is such a watch too (log 76, DESIGN
CHOICE). -/
def watchVer (s : State) (r : Ref) (who : WaitFor) (delay : Nat) : State :=
  match needTile s r.asid r.tn with
  | none =>
    (match who with
     | .read src _ _ => backTo s r src (.cause 0xF (refBits r))
     | .status src => backTo s r src (.cause 0xF (refBits r))
     | who => retryLater s r who delay)
  | some s =>
    let full := 4096 ≤ waitersUsed (s.slice (homeRef r))
    if hwmOf s r.asid r.tn < r.ver.toNat then
      if full then retryLater (parkStrand s who false) r who delay
      else parkStrand (onTile s r.asid r.tn fun t => { t with waiters := t.waiters ++ [⟨r.ver, who⟩] }) who true
    else match findVer s r with
      | none => answer s r none .absent who
      | some e =>
        if e.state == .filling then
          if full then retryLater (parkStrand s who false) r who delay
          else parkStrand (onVer s r fun e => { e with waiters := e.waiters ++ [⟨r.ver, who⟩] }) who true
        else answer s r (some e) (ansOf e) who

/-- The waiters that a flush cancels (R239). -/
def cancelWaiter (s : State) (r : Ref) (src : Src) : State :=
  let hit (w : Waiter) : Bool := match w.who with | .read o _ _ => o == src | .status o => o == src | _ => false
  let f (ws : List Waiter) := ws.filter fun w => !hit w
  let s := onTile s r.asid r.tn fun t => { t with waiters := f t.waiters }
  settleRef (onVer s r fun e => { e with waiters := f e.waiters }) r

/-! ## References -/

/-- THOLD (R232): the cause it draws. -/
def holdRef (s : State) (r : Ref) : Option Nat × State :=
  match needTile s r.asid r.tn with
  | none => (some 0xF, s)
  | some s =>
    match findVer s r with
    | none => (some 0xA, freeTile s r.asid r.tn)
    | some e =>
      if e.refs == 0xFFF then (none, s)
      else if e.refs == 0xFFE then (some 0xE, s)
      else (none, onVer s r fun e => { e with refs := e.refs + 1 })

/-- A decrement (R232). -/
def dropRef (s : State) (r : Ref) : Option Nat × State :=
  match findVer s r with
  | none => (some 0xA, s)
  | some e =>
    if e.refs == 0xFFF then (none, s)
    else if e.refs == 0 then (some 0xE, s)
    else (none, settleRef (onVer s r fun e => { e with refs := e.refs - 1 }) r)

end Sys2Proof.Machine
end

