-- ==== Sys2Proof/Machine/Tasks.lean ====
section
/-! DEFINITION. The end of a task (R374, R253, R458). -/

namespace Sys2Proof.Machine

/-- The task of a strand has ended (R374); the strand is idle. A report that is still pending goes, and is counted (R406). -/
def endTask (s : State) (c t : Nat) : State :=
  let d := s.strand c t
  let s := if d.report.isSome then s.count 0 else s
  let s := match d.launch with
    | some (asid, ver, slot) => if d.live then onLaunch s asid ver fun l => { l with ended := l.ended ++ [slot] } else s
    | none => s
  s.onStrand c t fun d => { d with
    live := false
    launch := none
    phase := if d.phase == .stopped then .stopped else .idle
    halting := false
    report := none
    commitTraps := [] }

/-- A committed HALT waits for the acknowledgements of the task's held tile requests; a report that comes first is
taken in place of the end (R253). -/
def haltCheck (s : State) (c t : Nat) : State :=
  let d := s.strand c t
  if !d.halting then s
  else match d.report with
    | some r =>
      if d.phase == .stopped then s.onStrand c t fun d => { d with halting := false }
      else if statusIE d.status then
        trapEntry (s.onStrand c t fun d => { d with halting := false, report := none }) c t { r with resume := d.bpc }
      else if d.ackTiles = 0 then endTask s c t else s
    | none => if d.ackTiles = 0 then endTask s c t else s

end Sys2Proof.Machine
end

