-- ==== Sys2Proof/Machine/TileEvents.lean ====
section
/-! DEFINITION. What tile requests do when they reach a home, their acknowledgements, and the other events of the
version tables (chapters 11 and 12). -/

namespace Sys2Proof.Machine

/-- The acknowledgement of a held request leaves its home. -/
def ack (s : State) (r : TReq) (cause : Option Nat) : State := s.emit (.tileAck r cause)

/-- The answer of an action with a cause. -/
def ackOf (r : TReq) (x : Option Nat × State) : State := ack x.2 r x.1

/-- A cause of a request's later fill reaches the strand as a report (R255, R253). -/
def reportOf (s : State) (r : TReq) (cause : Nat) : State :=
  report s r.src.core r.src.strand r.launch (reportRec cause (refBits r.ref) r.blk r.src.lsid)

/-- TILE_ACK (R253). -/
def tileAckStep (r : TReq) (cause : Option Nat) (s : State) : State :=
  let c := r.src.core
  let t := r.src.strand
  let s := (sbDone s c r.seq).onStrand c t fun d => { d with ackTiles := d.ackTiles - 1 }
  let s := match cause with | none => s | some k => reportOf s r k
  haltCheck s c t

/-- TNEW_AT_HOME (R254): also the creation of a fork (R255) and of a proxy (R263). -/
def tnewAtHomeStep (r : TReq) (d : NewDesc) (s : State) : State :=
  match d.proxy with
  | some node =>
    if node == s.sysnum.toNat then ack s r (some 0xB)
    else (match createVer s r.ref d with
      | .error k => ack s r (some k)
      | .ok s => sendFlit (ack s r none) (.sub node r.ref d.refs))
  | none =>
    match createVer s r.ref d, d.fork with
    | .ok s, none => ack s r none
    | .ok s, some (source, n) => (ack s r none).emit (.tforkCopyEnd r source n)
    | .error k, none => ack s r (some k)
    | .error k, some (source, _) => ack (settleRef (dropXref s source) source) r (some k)

/-- TLD_AT_HOME (R259). -/
def tldAtHomeStep (r : TReq) (off z : Nat) (s : State) : State := watchVer s r.ref (.read r.src off z) 64
/-- TST_AT_HOME (R257). -/
def tstAtHomeStep (r : TReq) (off : Nat) (d : List (Option Byte)) (s : State) : State := ackOf r (fillVer s r.ref off d)
/-- TSEAL_AT_HOME (R237). -/
def tsealAtHomeStep (r : TReq) (fin arr : Bool) (size : Nat) (s : State) : State := ackOf r (sealReq s r.ref fin arr size)
/-- TWAIT_AT_HOME (R260). -/
def twaitAtHomeStep (r : TReq) (s : State) : State := watchVer s r.ref (.status r.src) 64

/-- Words of a table image in 32 bytes. -/
def imageTok (ws : List Nat) : Token := bytesTok (ws.flatMap fun w => leBytes w 4)

/-- The index of a waiter or guard entry, which is free (R228). -/
def drawIndex (s : State) (valid : Bool) (n : Nat) : Nat × State := if valid then s.drawBelow n else (0, s)

/-- ADDR of a version entry (R228): the owner's number where the entry is or was ALIASED; of one without storage it is
free. -/
def verAddr (s : State) (e : Ver) : Nat × State :=
  if e.aver != 0 then (e.aver.toNat, s)
  else if e.grans != 0 then
    (if e.hbm then poolAddr (homeRef e.ref / 64) e.at_ / 128 else e.at_, s)
  else if e.proxy then (0, s)
  else s.drawBelow (2^33)

/-- The image of a version entry (R228). -/
def verImage (s : State) (e : Ver) : Token × State :=
  let b (x : Bool) (i : Nat) : Nat := if x then 2^i else 0
  let gv := e.guard.isSome
  let wv := !e.waiters.isEmpty
  let (guard, s) := drawIndex s gv 256
  let (wait, s) := drawIndex s wv 4096
  let (addr, s) := verAddr s e
  let w2 := e.asid.toNat + 2^16 * stateCode e.state + 2^20 * e.fmt.toNat + b e.hbm 24 + b e.fin 25 + b e.subscribed 26 +
    b e.pinned 27 + b e.proxy 28 + b e.gskip 29
  let w5 := e.refs + 2^12 * e.xref + 2^20 * guard + b gv 28
  let w7 := addr / 2^32 + 2 * wait + b wv 13 + 2^14 * e.node
  (imageTok [e.tn.toNat, e.ver.toNat, w2, e.pend, e.size, w5, addr % 2^32, w7], s)

/-- The image of a tile entry (R229). -/
def tileImage (s : State) (e : TileE) : Token × State :=
  let live := ((s.slice (homeOf e.asid e.tn)).vers.filter fun x => x.ofTile e.asid e.tn).length
  let wv := !e.waiters.isEmpty
  let (wait, s) := drawIndex s wv 4096
  (imageTok [e.tn.toNat, e.hwm, e.asid.toNat + 2^19 + (if e.ended then 2^25 else 0), live, 0, 0, 0,
    2 * wait + (if wv then 2^13 else 0)], s)

/-- TQRY_AT_HOME (R260). -/
def tqryAtHomeStep (r : TReq) (tile : Bool) (s : State) : State :=
  let absent := imageTok [r.ref.tn.toNat, r.ref.ver.toNat]
  let (t, s) := if tile then
      (match findTile s r.ref.asid r.ref.tn with | some e => tileImage s e | none => (absent, s))
    else (match findVer s r.ref with | some e => verImage s e | none => (absent, s))
  backTo s r.ref r.src (.tok t)

/-- THOLD_AT_HOME (R232). -/
def tholdAtHomeStep (r : TReq) (s : State) : State := ackOf r (holdRef s r.ref)
/-- DECREMENT_AT_HOME (R232). -/
def decrementAtHomeStep (r : TReq) (s : State) : State := ackOf r (dropRef s r.ref)

/-- Why a version cannot be the source of a fork or the owner of an alias (R236). -/
def sourceCause : Option Ver → Option Nat
  | none => some 0xA
  | some e =>
    match e.state with
    | .filling => some 0xB
    | .poisoned => some 0xD
    | .free | .retiring => some 0xA
    | _ => none

/-- TFORK_AT_HOME (R255): the source's home checks it and forwards the creation. -/
def tforkAtHomeStep (r : TReq) (source : Ref) (n size refs : Nat) (s : State) : State :=
  let src := findVer s source
  match sourceCause src, src with
  | some k, _ => ack s r (some k)
  | none, none => s
  | none, some e =>
    if e.size < n || 255 ≤ e.xref then ack s r (some 0xB)
    else (onVer s source fun e => { e with xref := e.xref + 1 }).emit (.tnewAtHome r
      { size := size, pend := size, refs := refs, fmt := e.fmt, pin := false, hbm := false, proxy := none
        fork := some (source, n) })

/-- The fill of a fork with the bytes copied, and the end of the copy (R255). A copy of no bytes is a fill of none at its end, which
a version that has sealed by then answers TILE_STATE (log 76, DESIGN CHOICE). -/
def forkFill (s : State) (r : TReq) (source : Ref) (d : List Byte) : State :=
  let (k, s) := fillVer s r.ref 0 (d.map some)
  let s := match k with | some k => reportOf s r k | none => s
  settleRef (dropXref s source) source

/-- A fork whose source was poisoned during the copy (R255). -/
def forkPoison (s : State) (r : TReq) (source : Ref) : State := settleRef (dropXref (poisonVer s r.ref) source) source

/-- TFORK_COPY_END (R255); a proxy's bytes are read at the source home (R242). -/
def tforkCopyEndStep (r : TReq) (source : Ref) (n : Nat) (s : State) : State :=
  match findVer s source with
  | none => poisonVer s r.ref
  | some e =>
    if e.state == .poisoned then forkPoison s r source
    else if (ownerOf s e).proxy && n != 0 then readSource s (ownerOf s e) 0 n (.fork r source n [])
    else forkFill s r source (verBytes s e 0 n)

/-- TALIAS_AT_HOME (R256). -/
def taliasAtHomeStep (r : TReq) (owner : BitVec 32) (refs : Nat) (s : State) : State :=
  let named := findVer s ⟨r.ref.asid, r.ref.tn, owner⟩
  if r.ref.ver.toNat ≤ hwmOf s r.ref.asid r.ref.tn then ack s r (some 0xB)
  else match sourceCause named, named with
    | some k, _ => ack s r (some k)
    | none, none => s
    | none, some e =>
      let o := ownerOf s e
      if 255 ≤ o.xref then ack s r (some 0xB)
      else
        let v := newVer r.ref { size := o.size, pend := 0, refs := refs, fmt := o.fmt, pin := false, hbm := false, proxy := none, fork := none }
        match addVer s { v with state := .aliased, aver := o.ver, sealTime := s.stamp } with
        | .error k => ack s r (some k)
        | .ok s =>
          let s := onVer s o.ref fun o => { o with xref := o.xref + 1 }
          ack (settleRef (answerAll (moveWaiters s r.ref) r.ref) r.ref) r none

/-- The predecessor TGUARD names: the highest existing version of the tile below `e` (R238). -/
def predecessor (s : State) (e : Ver) : Option Ver :=
  ((s.slice (homeRef e.ref)).vers.filter fun x => x.ofTile e.asid e.tn && x.ver.toNat < e.ver.toNat).foldl
    (fun p x => match p with | none => some x | some y => if y.ver.toNat < x.ver.toNat then some x else p) none

/-- TGUARD_AT_HOME (R238, R262): the watch on the guard leaves for the guard's home. -/
def tguardAtHomeStep (r : TReq) (guard : Ref) (s : State) : State :=
  match findVer s r.ref with
  | none => ack s r (some 0xA)
  | some e =>
    let big : Bool := match findVer s guard with | some g => decide (4096 < g.size) | none => false
    let p := predecessor s e
    let deep : Bool := match p with | some p => decide (255 ≤ p.xref) | none => false
    if e.proxy || e.state != .filling || e.guard.isSome then ack s r (some 0xB)
    else if big then ack s r (some 0xB)
    else if 256 ≤ guardsUsed (s.slice (homeRef r.ref)) then ack s r (some 0xF)
    else if deep then ack s r (some 0xB)
    else
      let s := match p with | some p => onVer s p.ref fun p => { p with xref := p.xref + 1 } | none => s
      let s := onVer s r.ref fun e => { e with guard := some ⟨guard, p.map (·.ver), none⟩ }
      (ack s r none).emit (.watchRetry guard (.guard r.ref) s.cycle 64)

/-- GUARD_RESULT (R238). -/
def guardResultStep (owner : Ref) (set : Bool) (s : State) : State :=
  settleRef (onVer s owner fun e => { e with guard := e.guard.map fun g => if g.status.isNone then { g with status := some set } else g }) owner

/-- TSUB_AT_HOME: a subscription arrives from a peer (R236, R241, R243). One that finds REFS at 0xFFE leaves it there, and is
noticed all the same (log 76, DESIGN CHOICE). -/
def tsubAtHomeStep (ref : Ref) (node refs : Nat) (s : State) : State :=
  let up (s : State) (mark : Bool) : State := onVer s ref fun e => { e with
    subscribed := e.subscribed || mark
    refs := if e.refs == 0xFFF then 0xFFF else min 0xFFE (e.refs + 1) }
  match findVer s ref with
  | none => watchVer s ref (.sub node refs) 64
  | some e =>
    match e.state with
    | .filling =>
      if 4096 ≤ waitersUsed (s.slice (homeRef ref)) then watchVer s ref (.sub node refs) 64
      else watchVer (up s true) ref (.sub node refs) 64
    | .sealed_ | .aliased => watchVer (up s false) ref (.sub node refs) 64
    | _ => watchVer s ref (.sub node refs) 64

/-- TPIN_AT_HOME (R264). -/
def tpinAtHomeStep (r : TReq) (pin : Bool) (s : State) : State :=
  match findVer s r.ref with
  | none => ack s r (some 0xA)
  | some e =>
    if pin && e.proxy then ack s r (some 0xB)
    else
      let s := onVer s r.ref fun e => { e with pinned := pin }
      ack (if pin && e.hbm then moveToWays s r.ref else s) r none

/-- TMOVE_AT_HOME (R264). -/
def tmoveAtHomeStep (r : TReq) (hbm : Bool) (s : State) : State :=
  match findVer s r.ref with
  | none => ack s r (some 0xA)
  | some e =>
    if e.proxy || e.state == .aliased then ack s r none
    else ack (if hbm then pullPinned (moveToPool s r.ref) (homeRef r.ref) else moveToWays s r.ref) r none

/-- WAITER_CANCEL (R239). -/
def waiterCancelStep (ref : Ref) (src : Src) (s : State) : State := cancelWaiter s ref src

/-- The strand that a read's retry is for is still waiting for it. -/
def stillWaits (s : State) : WaitFor → Bool
  | .read src _ _ | .status src => s.current src
  | _ => true

/-- READ_RETRY (R239). -/
def readRetryStep (ref : Ref) (who : WaitFor) (delay : Nat) (s : State) : State :=
  if stillWaits s who then watchVer s ref who delay else s
/-- WATCH_RETRY (R239). -/
def watchRetryStep (ref : Ref) (who : WaitFor) (delay : Nat) (s : State) : State :=
  match who with
  | .sub node refs => tsubAtHomeStep ref node refs s
  | who => watchVer s ref who delay

/-- ASID_TEARDOWN (R230, R232, R361): the ASID's versions, tile entries and waiters go; NEXTL is 1 again. -/
def asidTeardownStep (asid : BitVec 16) (s : State) : State :=
  let vers := s.slices.flatMap fun k => k.2.vers.filter fun e => e.asid == asid
  let tiles := s.slices.flatMap fun k => k.2.tiles.filter fun e => e.asid == asid
  let s := vers.foldl leavePool s
  let s : State := { s with
    slices := s.slices.map fun k => (k.1, { k.2 with
      vers := k.2.vers.filter fun e => e.asid != asid
      tiles := k.2.tiles.filter fun e => e.asid != asid })
    nextl := adel s.nextl asid.toNat }
  let s := (s.slices.map fun k => k.1).foldl (fun s k => pullPinned s k) s
  let s := vers.foldl (fun s e => e.waiters.foldl (fun s w => answer s e.ref none .absent w.who) s) s
  tiles.foldl (fun s e => e.waiters.foldl (fun s w => answer s ⟨e.asid, e.tn, w.ver⟩ none .absent w.who) s) s

/-- A version's granules in the tile ways reach into way `w`. -/
def inWay (e : Ver) (w : Nat) : Bool := !e.hbm && e.grans != 0 && e.at_ < (w + 1) * 2048 && w * 2048 < e.at_ + e.grans

/-- A version in a draining way can move: a pinned one to another way, any other to the tile pool (R185). -/
def drains (s : State) (k : Nat) (e : Ver) : Bool :=
  if e.pinned then (runInWays s k e.grans).1.isSome else (runInPool s (k / 64) e.grans).1.isSome

/-- The versions that way `w` of slice `k` can give up. -/
def drainable (s : State) (k w : Nat) : List Ver := (s.slice k).vers.filter fun e => inWay e w && drains s k e

/-- The ways of a slice that may hold lines: with none left, no write of its lines can be undone any more (R185, R187). -/
def keepWays (s : State) (k : Nat) (ways : BitVec 16) : State :=
  let s := s.onSlice k fun x => { x with maybe := x.maybe &&& ways }
  if mayHold (s.slice k) then s else { s with undo := s.undo.filter fun e => sliceOf (128 * e.1) != k }

/-- WAY_DRAIN (R185): a draining tile way gives up one version, which one is free; a cache way its last line. -/
def wayDrainStep (k w : Nat) (s : State) : State :=
  let sl := s.slice k
  if !sl.flush.getLsbD w then s
  else if sl.tile.getLsbD w then
    let vs := drainable s k w
    let (i, s) := s.drawBelow vs.length
    match vs[i]? with
    | none => s
    | some e =>
      if e.pinned then (match runInWays s k e.grans with
        | (some a, s) => pullPinned (onVer s e.ref fun e => { e with at_ := a }) k
        | (none, s) => s)
      else pullPinned (moveToPool s e.ref) k
  else keepWays s k (~~~(BitVec.ofNat 16 (2^w)))

/-- TILE_ACK (R253). -/
def execTileAck (s : State) : Out := .next (match s.packet with | .tileAck r c => tileAckStep r c s | _ => s)
/-- TNEW_AT_HOME (R254). -/
def execTnewAtHome (s : State) : Out := .next (match s.packet with | .tnewAtHome r d => tnewAtHomeStep r d s | _ => s)
/-- TLD_AT_HOME (R259). -/
def execTldAtHome (s : State) : Out := .next (match s.packet with | .tldAtHome r o z => tldAtHomeStep r o z s | _ => s)
/-- TST_AT_HOME (R257). -/
def execTstAtHome (s : State) : Out := .next (match s.packet with | .tstAtHome r o d => tstAtHomeStep r o d s | _ => s)
/-- TSEAL_AT_HOME (R237). -/
def execTsealAtHome (s : State) : Out :=
  .next (match s.packet with | .tsealAtHome r f a z => tsealAtHomeStep r f a z s | _ => s)
/-- TWAIT_AT_HOME (R260). -/
def execTwaitAtHome (s : State) : Out := .next (match s.packet with | .twaitAtHome r => twaitAtHomeStep r s | _ => s)
/-- TQRY_AT_HOME (R260). -/
def execTqryAtHome (s : State) : Out := .next (match s.packet with | .tqryAtHome r t => tqryAtHomeStep r t s | _ => s)
/-- THOLD_AT_HOME (R232). -/
def execTholdAtHome (s : State) : Out := .next (match s.packet with | .tholdAtHome r => tholdAtHomeStep r s | _ => s)
/-- DECREMENT_AT_HOME (R232). -/
def execDecrementAtHome (s : State) : Out :=
  .next (match s.packet with | .decrementAtHome r => decrementAtHomeStep r s | _ => s)
/-- TFORK_AT_HOME (R255). -/
def execTforkAtHome (s : State) : Out :=
  .next (match s.packet with | .tforkAtHome r f n z k => tforkAtHomeStep r f n z k s | _ => s)
/-- TFORK_COPY_END (R255). -/
def execTforkCopyEnd (s : State) : Out :=
  .next (match s.packet with | .tforkCopyEnd r f n => tforkCopyEndStep r f n s | _ => s)
/-- TALIAS_AT_HOME (R256). -/
def execTaliasAtHome (s : State) : Out :=
  .next (match s.packet with | .taliasAtHome r o k => taliasAtHomeStep r o k s | _ => s)
/-- TGUARD_AT_HOME (R238). -/
def execTguardAtHome (s : State) : Out :=
  .next (match s.packet with | .tguardAtHome r g => tguardAtHomeStep r g s | _ => s)
/-- GUARD_RESULT (R238). -/
def execGuardResult (s : State) : Out := .next (match s.packet with | .guardResult o b => guardResultStep o b s | _ => s)
/-- TSUB_AT_HOME (R241). -/
def execTsubAtHome (s : State) : Out := .next (match s.packet with | .tsubAtHome r n k => tsubAtHomeStep r n k s | _ => s)
/-- TPIN_AT_HOME (R264). -/
def execTpinAtHome (s : State) : Out := .next (match s.packet with | .tpinAtHome r p => tpinAtHomeStep r p s | _ => s)
/-- TMOVE_AT_HOME (R264). -/
def execTmoveAtHome (s : State) : Out := .next (match s.packet with | .tmoveAtHome r h => tmoveAtHomeStep r h s | _ => s)
/-- WAITER_CANCEL (R239). -/
def execWaiterCancel (s : State) : Out :=
  .next (match s.packet with | .waiterCancel r src => waiterCancelStep r src s | _ => s)
/-- READ_RETRY (R239). -/
def execReadRetry (s : State) : Out :=
  .next (match s.packet with | .readRetry r w _ d => readRetryStep r w d s | _ => s)
/-- WATCH_RETRY (R239). -/
def execWatchRetry (s : State) : Out :=
  .next (match s.packet with | .watchRetry r w _ d => watchRetryStep r w d s | _ => s)
/-- ASID_TEARDOWN (R230). -/
def execAsidTeardown (s : State) : Out := .next (match s.packet with | .asidTeardown a => asidTeardownStep a s | _ => s)
/-- WAY_DRAIN (R185). -/
def execWayDrain (s : State) : Out := .next (match s.packet with | .wayDrain k w => wayDrainStep k w s | _ => s)
end Sys2Proof.Machine
end

