-- ==== Sys2Proof/Machine/TileLocal.lean ====
section
/-! DEFINITION. The local version table (R244, R245): reads that park on a strand, fills, seals and reclamation of the
local tiles of a core, whose storage is raw Loft bytes. -/

namespace Sys2Proof.Machine

/-- A version number is above the current one (R245). -/
def lvtAbove (cur v : BitVec 16) : Bool := let d := (v - cur).toNat; 1 ≤ d && d ≤ 32767

/-- The entry whose storage a local version reads. -/
def lvtOwner (s : State) (c : Nat) (e : LVer) : LVer := if e.state == .aliased then s.lvt c e.alink else e

/-- Bytes of a local version, raw Loft bytes. -/
def lvtBytes (s : State) (c : Nat) (e : LVer) (off n : Nat) : List Byte :=
  memBytes (s.core c).loft ((lvtOwner s c e).addr * 64 + off) n

/-- An answer to a read of local version `v`, or none where it parks (R245). -/
def lvtLook (s : State) (c l : Nat) (v : BitVec 16) : Option Answer :=
  let e := s.lvt c l
  if lvtAbove e.ver v then none
  else if v != e.ver then some .absent
  else match e.state with
    | .filling => none
    | .sealed_ | .aliased => some .readable
    | .poisoned => some .poisoned
    | _ => some .absent

/-- TWAIT's status of a local version (R260). -/
def lvtStatus (e : LVer) : Token :=
  dTok (e.size + 2^28 * e.fmt.toNat + 2^32 * stateCode e.state + (if e.fin then 2^36 else 0))

/-- A local TLD or TWAIT: tile, version, reference, and for a TLD offset and size. -/
structure LRead where
  l : Nat
  v : BitVec 16
  ref : Word
  at_ : Option (Nat × Nat)
  deriving DecidableEq, Repr

/-- Every word of an X instruction after its first (R67). -/
def argOf (b : Block) (i : Nat) : BitVec 32 := match b.slots[i + 1]? with | some sl => sl.word | none => 0

/-- Bytes of a SIZE code in a word of a tile form (R69, R247). -/
def tileSize (w : Word32) : Nat := sizeBytes (.ofNat 3 (wf w 8 3))

/-- The local read that a fired slot has asked for. -/
def lreadAt (b : Block) (i : Nat) : Option LRead :=
  match b.slots[i]? with
  | none => none
  | some sl =>
    let x := v64 (sl.a.getD noTok) 0
    let rd (at_ : Option (Nat × Nat)) : Option LRead := some ⟨bits x 32 6, .ofNat 16 (bits x 0 16), x, at_⟩
    if majorOf sl.word != 0x71 then none
    else if wf sl.word 13 5 == 1 then
      rd (some ((v64 (sl.b.getD noTok) 0).toNat + (argOf b i).toNat, tileSize sl.word))
    else if wf sl.word 13 5 == 4 then rd none
    else none

/-- First Loft byte of byte `off` of a local version. -/
def lvtAt (s : State) (c : Nat) (e : LVer) (off : Nat) : Nat := (lvtOwner s c e).addr * 64 + off

/-- Raw bytes of a local version hold an uncorrectable error (R189). -/
def lvtBad (s : State) (c : Nat) (e : LVer) (off n : Nat) : Bool :=
  (s.core c).loftPoison.any fun x => lvtAt s c e off ≤ x && x < lvtAt s c e off + n

/-- The bytes that a local read finds forwarded: those of stores to the same Loft bytes that its block holds with a lower LSID, or
that the core's store buffer holds (R48, R197). -/
def lvtGot (s : State) (src : Src) (a z : Nat) : List (Option Byte) :=
  match blockOf s src with
  | some b => (List.range z).map fun j => forward s src.core b (s.core src.core).asid src.lsid true (a + j)
  | none => List.replicate z none

/-- What a local read that does not park returns. -/
def lvtRet (s : State) (src : Src) (r : LRead) (a : Answer) : Ret :=
  let c := src.core
  let e := s.lvt c r.l
  match a, r.at_ with
  | .readable, none => .tok (lvtStatus e)
  | .readable, some (off, z) =>
    let at_ := lvtAt s c e off
    let got := lvtGot s src at_ z
    if e.size < off + z then .cause 0xB r.ref
    else if (s.core c).loftPoison.any fun x => at_ ≤ x && x < at_ + z && (got[x - at_]?).join.isNone then .cause 0xD r.ref
    else .tok (readTok z (List.zipWith (fun o x => o.getD x) got (lvtBytes s c e off z)))
  | a, _ => .cause (ansCause a) r.ref

/-- A strand of the core waits for a read of this tile. -/
def lvtParked (s : State) (c l t : Nat) : Bool :=
  match (s.strand c t).block with
  | none => false
  | some b => b.outst.any fun o => o.parked && match lreadAt b o.idx with | some r => r.l == l | none => false

/-- WAIT holds the strands that are parked (R244). -/
def lvtWaits (s : State) (c l : Nat) : State :=
  let w := (List.range 16).foldl (fun (w : BitVec 16) t => if lvtParked s c l t then w ||| .ofNat 16 (2^t) else w) 0
  s.onLvt c l fun e => { e with wait := w }

/-- One less that depends on a local entry (R233). -/
def lvtDropXref (s : State) (c l : Nat) : State := s.onLvt c l fun e => { e with xref := e.xref - 1 }

/-- The entry whose storage a local version reads, and the aliases of it (R236). -/
def lvtSharing (s : State) (c l : Nat) : Nat × List Nat :=
  let o := if (s.lvt c l).state == .aliased then (s.lvt c l).alink else l
  (o, (List.range 64).filter fun j => (s.lvt c j).state == .aliased && (s.lvt c j).alink == o)

/-- A readable version, on which no read is parked, is marked POISONED with every alias of its storage: bytes of it that are read
are in error (R189, R236). -/
def lvtMark (s : State) (c l : Nat) : State :=
  let (o, aliases) := lvtSharing s c l
  let s := aliases.foldl (fun s j => lvtDropXref (s.onLvt c j fun e => { e with state := .poisoned }) c o) s
  s.onLvt c o fun e => { e with state := .poisoned }

/-- Parked reads of a tile of strand `t` that have an answer now get it. -/
def lvtWakeStrand (s : State) (c l t : Nat) : State :=
  match (s.strand c t).block with
  | none => s
  | some b => b.outst.foldl (fun s o =>
      match o.parked, lreadAt b o.idx with
      | true, some r =>
        if r.l != l then s
        else (match lvtLook s c l r.v with
          | none => s
          | some a =>
            let s := setWait (s.onBlock c t fun b => { b with
              outst := b.outst.map fun x => if x.idx == o.idx then { x with parked := false } else x }) c t o.idx false
            let src : Src := ⟨c, t, (s.strand c t).epoch, o.idx, o.lsid⟩
            let ret := lvtRet s src r a
            let s := if ret == .cause 0xD r.ref && a == .readable then lvtMark s c l else s
            s.emit (.resultReturn none src ret))
      | _, _ => s) s

/-- After a change of a local tile its parked reads are looked at again (R239, R245). -/
def lvtWake (s : State) (c l : Nat) : State :=
  lvtWaits ((List.range 16).foldl (fun s t => lvtWakeStrand s c l t) s) c l

/-- Seal and reclamation of a local version, whose tile holds no other (R237, R234). -/
def lvtSettleOne (s : State) (c l : Nat) : State :=
  let s := if (s.lvt c l).state == .filling && (s.lvt c l).pend == 0 then
      lvtWake (s.onLvt c l fun e => { e with state := .sealed_ }) c l
    else s
  let e := s.lvt c l
  if (e.state == .sealed_ || e.state == .aliased || e.state == .poisoned) && e.refs == 0 && e.xref == 0 then
    let s := s.onLvt c l fun e => { e with state := .free }
    if e.state == .aliased then lvtDropXref s c e.alink else s
  else s

/-- The checks after an action on a local tile, and on its owner when it was an alias. -/
def lvtSettle (s : State) (c l : Nat) : State :=
  let o := (s.lvt c l).alink
  let s := lvtSettleOne s c l
  lvtSettleOne s c o

/-- A local version becomes POISONED, with every alias of its storage (R236). -/
def lvtPoison (s : State) (c l : Nat) : State :=
  let e := s.lvt c l
  if e.state == .free || e.state == .poisoned then s
  else
    let (o, aliases) := lvtSharing s c l
    let s := aliases.foldl (fun s j =>
      lvtDropXref (lvtWake (s.onLvt c j fun e => { e with state := .poisoned }) c j) c o) s
    let s := lvtWake (s.onLvt c o fun e => { e with state := .poisoned }) c o
    (aliases ++ [o]).foldl (fun s j => lvtSettleOne s c j) s

/-- A fill of a local version (R257): the cause it draws. -/
def lvtFill (s : State) (c l : Nat) (v : BitVec 16) (off : Nat) (d : List (Option Byte)) : Option Nat × State :=
  let e := s.lvt c l
  let n := (d.filter Option.isSome).length
  if v != e.ver || e.state == .free then (some 0xA, s)
  else if e.state == .poisoned then (none, s)
  else if e.state != .filling then (some 0xB, s)
  else if e.size < off + d.length then (some 0xB, s)
  else if e.pend < n then (some 0xC, s)
  else
    let s := loftWrite s c (e.addr * 64 + off) d
    (none, lvtSettle (s.onLvt c l fun e => { e with pend := e.pend - n }) c l)

/-- TSEAL of a local version (R237, R258). -/
def lvtSeal (s : State) (c l : Nat) (v : BitVec 16) (fin arr : Bool) (size : Nat) : Option Nat × State :=
  let e := s.lvt c l
  let arrived := e.size - e.pend
  let n := if arr then arrived else size
  if v != e.ver || e.state == .free then (some 0xA, s)
  else if e.state != .filling then (some 0xB, s)
  else if fin then
    if e.size < n || n < arrived then (some 0xC, s)
    else (none, lvtSettle (s.onLvt c l fun e => { e with fin := true, pend := n - arrived, size := n }) c l)
  else if e.size < n then (some 0xB, s)
  else (none, lvtSettle (s.onLvt c l fun e => { e with size := n, pend := 0 }) c l)

/-- Creation of a local version (R245, R254). -/
def lvtNew (s : State) (c l : Nat) (v : BitVec 16) (f : LVer → LVer) : Option Nat × State :=
  let e := s.lvt c l
  if !lvtAbove e.ver v || e.state != .free then (some 0xB, s)
  else (none, lvtSettle (lvtWake (s.onLvt c l fun e => f { e with ver := v, fin := false, alink := 0, xref := 0 }) c l) c l)

/-- THOLD and a decrement of a local version; 0xFF is permanent (R232, R244). -/
def lvtHold (s : State) (c l : Nat) (v : BitVec 16) : Option Nat × State :=
  let e := s.lvt c l
  if v != e.ver || e.state == .free then (some 0xA, s)
  else if e.refs == 0xFF then (none, s)
  else if e.refs == 0xFE then (some 0xE, s)
  else (none, s.onLvt c l fun e => { e with refs := e.refs + 1 })
def lvtDrop (s : State) (c l : Nat) (v : BitVec 16) : Option Nat × State :=
  let e := s.lvt c l
  if v != e.ver || e.state == .free then (some 0xA, s)
  else if e.refs == 0xFF then (none, s)
  else if e.refs == 0 then (some 0xE, s)
  else (none, lvtSettle (s.onLvt c l fun e => { e with refs := e.refs - 1 }) c l)

/-- Why a local version cannot be a fork's source or an alias's owner (R236). -/
def lvtSource (s : State) (c l : Nat) (v : BitVec 16) : Option Nat :=
  let e := s.lvt c l
  if v != e.ver then some 0xA
  else match e.state with
    | .filling => some 0xB
    | .poisoned => some 0xD
    | .free | .retiring => some 0xA
    | _ => none

/-- TFORK of local versions (R255): the copy is one fill, made at once. -/
def lvtFork (s : State) (c l : Nat) (v : BitVec 16) (l' : Nat) (v' : BitVec 16) (n size laddr refs : Nat) : Option Nat × State :=
  match lvtSource s c l' v' with
  | some k => (some k, s)
  | none =>
    let e := s.lvt c l'
    if e.size < n || 63 ≤ e.xref then (some 0xB, s)
    else
      let bad := lvtBad s c e 0 n
      let d := lvtBytes s c e 0 n
      let free := lvtAbove (s.lvt c l).ver v && (s.lvt c l).state == .free
      if !free then (some 0xB, s)
      else
        -- the copy precedes the checks of a version created with nothing pending; one that meets an error poisons both (R236)
        let s := if bad then lvtPoison s c l' else loftWrite s c laddr (d.map some)
        lvtNew s c l v fun x =>
          { x with
            state := if bad then .poisoned else .filling
            fmt := e.fmt
            pend := size - n
            size := size
            refs := refs
            addr := laddr / 64 }

/-- TALIAS of local versions (R256). -/
def lvtAlias (s : State) (c l : Nat) (v : BitVec 16) (l' : Nat) (v' : BitVec 16) (refs : Nat) : Option Nat × State :=
  if !(lvtAbove (s.lvt c l).ver v && (s.lvt c l).state == .free) then (some 0xB, s)
  else match lvtSource s c l' v' with
  | some k => (some k, s)
  | none =>
    let o := if (s.lvt c l').state == .aliased then (s.lvt c l').alink else l'
    let e := s.lvt c o
    if 63 ≤ e.xref then (some 0xB, s)
    else
      let s := s.onLvt c o fun e => { e with xref := e.xref + 1 }
      let s := s.onLvt c l fun x => { x with
        ver := v
        state := .aliased
        fmt := e.fmt
        fin := false
        pend := 0
        size := e.size
        alink := o
        refs := refs
        xref := 0 }
      (none, lvtSettle (lvtWake s c l) c l)

/-- A held local request reaches the head of the store buffer (R252, R245). -/
def lvtApply (s : State) (c l ver : Nat) (q : LTile) : Option Nat × State :=
  let v : BitVec 16 := .ofNat 16 ver
  match q with
  | .tnew size pend laddr refs fmt =>
    lvtNew s c l v fun x => { x with state := .filling, fmt := fmt, pend := pend, size := size, refs := refs, addr := laddr / 64 }
  | .tst off d => lvtFill s c l v off d
  | .tseal fin arr size => lvtSeal s c l v fin arr size
  | .thold => lvtHold s c l v
  | .decrement => lvtDrop s c l v
  | .tfork l' v' n size laddr refs => lvtFork s c l v l' (.ofNat 16 v') n size laddr refs
  | .talias l' v' refs => lvtAlias s c l v l' (.ofNat 16 v') refs

/-- The image of a local entry (R244). -/
def lvtImage (e : LVer) : Token :=
  let lo := e.ver.toNat + 2^16 * stateCode e.state + 2^19 * e.fmt.toNat + (if e.fin then 2^23 else 0) + 2^24 * e.pend +
    2^41 * e.size + 2^58 * e.alink
  let hi := e.refs + 2^8 * e.addr + 2^19 * e.wait.toNat + 2^35 * e.xref
  bytesTok (leBytes lo 8 ++ leBytes hi 8)

/-- An uncorrectable error in a Loft strikes the local versions that hold the byte (R189, R236). -/
def loftStrike (s : State) (c a : Nat) : State :=
  ((List.range 64).filter fun l =>
    let e := s.lvt c l
    e.state != .free && e.state != .aliased && e.addr * 64 ≤ a && a < e.addr * 64 + e.size).foldl (fun s l => lvtPoison s c l) s

/-- An error strikes a line of memory. Where a way may hold the line it may be the cached copy that is struck: a discard of
it brings back what HBM holds (R187, R189). -/
def lineStrike (s : State) (pa : Nat) : State :=
  let line := fwd s pa / 128
  let s := if mayBeHeld s line then
      { s with undo := aput s.undo line (([], s.poison.contains line) :: aget s.undo line []) }
    else s
  { s with poison := markLine s.poison line true }

/-- An error in the storage of a version: it is counted, and the version becomes POISONED (R189, R236, R407). -/
def versionStrike (s : State) (ref : Ref) : State :=
  match findVer s ref with
  | none => s
  | some e =>
    if (ownerOf s e).grans == 0 || e.state == .poisoned then s
    else
      let k := homeRef ref
      let s := if (ownerOf s e).hbm then
          let (ch, s) := s.drawBelow 128
          srcUe s 2 (k / 64 * 128 + ch) (k / 64)
        else sliceUe s k
      poisonVer s ref

end Sys2Proof.Machine
end

