-- ==== Sys2Proof/Machine/TileInstr.lean ====
section
/-! DEFINITION. The tile instructions: their firing checks (R247-R250) and the requests that they make (R251, R252). -/

namespace Sys2Proof.Machine

/-- A reference of major 0x70 has VER ≠ 0; one of major 0x71 has its other bits zero (R248, R250). -/
def refOk (loc : Bool) (x : Word) : Bool := if loc then bits x 16 16 == 0 && bits x 38 26 == 0 else bits x 0 32 != 0

/-- A form is wholly null (R250, R257): a null byte in its reference, descriptor or offset lanes, or a TST without
data. -/
def tileNull (w : Word32) (a b : Token) : Bool :=
  let fn := wf w 13 5
  let z := tileSize w
  anyNull a 0 8 ||
    ((fn == 0 || fn == 1 || fn == 9 || fn == 10) && anyNull b 0 8) ||
    (fn == 2 && (allNull b z || (z != 64 && anyNull b 8 8))) ||
    (fn == 8 && anyNull b 0 16)

/-- The forms whose meeting in one block is a fault (R250, step 4): readers TLD and TWAIT, writers TNEW, TST, TSEAL,
TFORK and TALIAS. -/
def tileReads (w : Word32) : Bool := wf w 13 5 == 1 || wf w 13 5 == 4
def tileMakes (w : Word32) : Bool := wf w 13 5 == 0 || wf w 13 5 == 2 || wf w 13 5 == 3 || wf w 13 5 == 8 || wf w 13 5 == 9

/-- LSID of the TLD or TWAIT where the form that fires meets one of the other kind on the same reference. -/
def tileClash (b : Block) (i : Nat) : Option Nat :=
  match b.slots[i]? with
  | none => none
  | some me =>
    let x := v64 (me.a.getD noTok) 0
    let other := b.instrs.find? fun (j, sl) =>
      j != i && sl.fired && majorOf sl.word == majorOf me.word && !tileNull sl.word (sl.a.getD noTok) (sl.b.getD noTok) &&
      v64 (sl.a.getD noTok) 0 == x &&
      ((tileReads me.word && tileMakes sl.word) || (tileMakes me.word && tileReads sl.word))
    other.map fun (_, sl) => if tileReads me.word then lsidOf me.word else lsidOf sl.word

/-- The checks of R250 in their order: references that obey R248, the other conditions of step 1, alignment, local
storage, and step 4. A B reference that fails is the one that TVAL carries (log 76, DESIGN CHOICE). -/
def tileChecks (s : State) (lsid : BitVec 5) (x : Word) (loc : Bool) (others : List Word) (ok1 ok2 : Bool)
    (store : Option (Nat × Nat)) (k : State → State) : State :=
  let l := some lsid.toNat
  let cr := s.core s.cur.1
  let badStore := store.filter fun (a, n) => !rawOk s.user cr.protbase.toNat cr.protlimit.toNat a n
  if !refOk loc x then faultHere s 0xB x l
  else match others.find? fun y => !refOk loc y with
    | some y => faultHere s 0xB y l
    | none =>
      if !ok1 then faultHere s 0xB x l
      else if !ok2 then faultHere s 9 x l
      else match badStore with
        | some (a, _) => faultHere s 8 (.ofNat 64 a) l
        | none =>
          match s.curBlock.bind fun b => tileClash b s.cur.2.2 with
          | some j => faultHere s 0xB x (some j)
          | none => k s

/-- A TLD or TWAIT, of a local version or not, fires only where the order of the block's reads lets it (R48, R199, R201). -/
def whenRead (s : State) (loc : Bool) (lsid : BitVec 5) (k : State → State) : State :=
  match s.curBlock with
  | some b => if mayRead s s.cur.1 s.cur.2.1 b loc lsid.toNat then k s else s
  | none => s

/-- A tile form fires: with nulls as `null` says, else under `body`. -/
def tileFire (s : State) (pr : BitVec 2) (na nb : Bool) (null : State → State) (body : Fired → State → State) : State :=
  fireWith s na nb false false pr fun o s =>
    match s.curBlock.bind fun b => b.slots[s.cur.2.2]? with
    | none => s
    | some sl => if tileNull sl.word o.a o.b then null s else body o s

/-- The head of a request of the firing in progress; the rest is set when it leaves the store buffer. -/
def State.treq (s : State) (lsid : BitVec 5) (x : Word) : TReq :=
  ⟨refOf (s.core s.cur.1).asid x, s.src lsid, 0, 0, none⟩

/-- Local tile and version of a reference (R248). -/
def locTile (x : Word) : Nat := bits x 32 6
def locVer (x : Word) : Nat := bits x 0 16

/-- A held request of a form on the version tables. -/
def tileHeld (s : State) (pr : BitVec 2) (lsid : BitVec 5) (nb : Bool) (others : Token → List Word) (ok : Token → Bool)
    (pkt : TReq → Token → Packet) : State :=
  tileFire s pr true nb (arriveHere · lsid) fun o s =>
    let x := v64 o.a 0
    tileChecks s lsid x false (others o.b) (ok o.b) true none fun s => holdHere s lsid (.tile (pkt (s.treq lsid x) o.b))

/-- A held request of a form on the local tiles. -/
def tileHeldLoc (s : State) (pr : BitVec 2) (lsid : BitVec 5) (nb : Bool) (others : Token → List Word) (ok ok2 : Token → Bool)
    (store : Token → Option (Nat × Nat)) (q : Token → LTile) : State :=
  tileFire s pr true nb (arriveHere · lsid) fun o s =>
    let x := v64 o.a 0
    tileChecks s lsid x true (others o.b) (ok o.b) (ok2 o.b) (store o.b) fun s =>
      holdHere s lsid (.ltile (locTile x) (locVer x) (q o.b))

def noRefs : Token → List Word := fun _ => []
def ref0 : Token → List Word := fun b => [v64 b 0]
def always : Token → Bool := fun _ => true
def noStore : Token → Option (Nat × Nat) := fun _ => none
/-- ARG32 must be zero. -/
def zeroArg (arg : BitVec 32) : Token → Bool := fun _ => arg == 0

/-! ## Forms on the version tables -/

def tnewStep (pr : BitVec 2) (lsid : BitVec 5) (pin hbm : BitVec 1) (arg : BitVec 32) (s : State) : State :=
  let a := arg.toNat
  let size (b : Token) : Nat := bits (v64 b 0) 0 28
  let pend (b : Token) : Nat := bits (v64 b 0) 32 28
  tileHeld s pr lsid true noRefs
    (fun b => a / 2^16 == 0 && a / 2^12 % 16 < 8 && bits (v64 b 0) 28 4 == 0 && bits (v64 b 0) 60 4 == 0 && pend b ≤ size b)
    fun r b => .tnewAtHome r
      { size := size b, pend := pend b, refs := a % 2^12, fmt := .ofNat 4 (a / 2^12), pin := pin == 1, hbm := hbm == 1
        proxy := none, fork := none }

/-- A TLD on the version tables (R259): its request leaves at once. -/
def tldStep (pr : BitVec 2) (lsid : BitVec 5) (size : BitVec 3) (last : BitVec 1) (t0 : BitVec 8) (arg : BitVec 32) (s : State) : State :=
  let z := sizeBytes size
  whenRead s false lsid fun s =>
  tileFire s pr true true (fun s => send1 (if last == 1 then arriveHere s lsid else s) t0 (loadNull z)) fun o s =>
    let x := v64 o.a 0
    let off := (v64 o.b 0).toNat + arg.toNat
    tileChecks s lsid x false [] (off < 2^28) (z != 64 || off % 64 == 0) none fun s =>
      let r := s.treq lsid x
      (mayLag (outstHere s lsid.toNat z (some r.ref))).emit (.tldAtHome r off z)

/-- TST's byte offset (R257). -/
def tstOff (z : Nat) (arg : BitVec 32) (b : Token) : Nat := arg.toNat + (if z = 64 then 0 else (v64 b 1).toNat)

def tstStep (pr : BitVec 2) (lsid : BitVec 5) (size : BitVec 3) (arg : BitVec 32) (s : State) : State :=
  let z := sizeBytes size
  tileFire s pr true true (arriveHere · lsid) fun o s =>
    let x := v64 o.a 0
    let off := tstOff z arg o.b
    tileChecks s lsid x false [] (off < 2^28) (z != 64 || off % 64 == 0) none fun s =>
      holdHere s lsid (.tile (.tstAtHome (s.treq lsid x) off (tokBytes o.b z)))

/-- TSEAL and TSEAL.end (R258). -/
def tsealWith (fin : Bool) (pr : BitVec 2) (lsid : BitVec 5) (arg : BitVec 32) (s : State) : State :=
  tileHeld s pr lsid false noRefs (fun _ => arg.toNat / 2^28 % 8 == 0) fun r _ =>
    .tsealAtHome r fin (arg.getLsbD 31) (arg.toNat % 2^28)

/-- TWAIT and TQRY: a returning request at once (R251, R260). -/
def tileAsk (s : State) (pr : BitVec 2) (lsid : BitVec 5) (t0 : BitVec 8) (null : Token) (arg : BitVec 32) (wait : Bool)
    (pkt : TReq → Packet) : State :=
  tileFire s pr true false (fun s => send1 s t0 null) fun o s =>
    let x := v64 o.a 0
    tileChecks s lsid x false [] (arg == 0) true none fun s =>
      let r := s.treq lsid x
      let s := outstHere s lsid.toNat 0 (if wait then some r.ref else none)
      (if wait then mayLag s else s).emit (pkt r)

def twaitStep (pr : BitVec 2) (lsid : BitVec 5) (t0 : BitVec 8) (arg : BitVec 32) (s : State) : State :=
  whenRead s false lsid fun s => tileAsk s pr lsid t0 (nullTok 0) arg true .twaitAtHome
def tqryStep (pr : BitVec 2) (lsid : BitVec 5) (tile : BitVec 1) (t0 : BitVec 8) (arg : BitVec 32) (s : State) : State :=
  tileAsk s pr lsid t0 (nullTok 2) arg false (.tqryAtHome · (tile == 1))
def tholdStep (pr : BitVec 2) (lsid : BitVec 5) (arg : BitVec 32) (s : State) : State :=
  tileHeld s pr lsid false noRefs (zeroArg arg) fun r _ => .tholdAtHome r
def trelStep (pr : BitVec 2) (lsid : BitVec 5) (arg : BitVec 32) (s : State) : State :=
  tileHeld s pr lsid false noRefs (zeroArg arg) fun r _ => .decrementAtHome r
/-- REFS alone in ARG32, as TNEW holds it (R247). -/
def refsOnly (arg : BitVec 32) (n : Nat) : Bool := arg.toNat < 2^n
def tforkStep (pr : BitVec 2) (lsid : BitVec 5) (arg : BitVec 32) (s : State) : State :=
  let n (b : Token) : Nat := bits (v64 b 1) 0 28
  let size (b : Token) : Nat := bits (v64 b 1) 32 28
  tileHeld s pr lsid true ref0
    (fun b => refsOnly arg 12 && bits (v64 b 1) 28 4 == 0 && bits (v64 b 1) 60 4 == 0 && n b ≤ size b)
    fun r b => .tforkAtHome r (refOf r.ref.asid (v64 b 0)) (n b) (size b) arg.toNat
/-- TALIAS: the owner belongs to the same tile (R256). -/
def taliasStep (pr : BitVec 2) (lsid : BitVec 5) (arg : BitVec 32) (s : State) : State :=
  tileFire s pr true true (arriveHere · lsid) fun o s =>
    let x := v64 o.a 0
    let y := v64 o.b 0
    tileChecks s lsid x false [y] (refsOnly arg 12 && bits x 32 32 == bits y 32 32) true none fun s =>
      holdHere s lsid (.tile (.taliasAtHome (s.treq lsid x) (.ofNat 32 (bits y 0 32)) arg.toNat))
def tguardStep (pr : BitVec 2) (lsid : BitVec 5) (arg : BitVec 32) (s : State) : State :=
  tileHeld s pr lsid true ref0 (zeroArg arg) fun r b => .tguardAtHome r (refOf r.ref.asid (v64 b 0))
/-- TSUB: the proxy that it creates (R263). -/
def tsubStep (pr : BitVec 2) (lsid : BitVec 5) (arg : BitVec 32) (s : State) : State :=
  let a := arg.toNat
  tileHeld s pr lsid false noRefs (fun _ => a / 2^19 == 0 && a % 128 != 0x7F) fun r _ => .tnewAtHome r
    { size := 0, pend := 0, refs := a / 2^7 % 2^12, fmt := 0, pin := false, hbm := false, proxy := some (a % 128), fork := none }
def tpinStep (pr : BitVec 2) (lsid : BitVec 5) (arg : BitVec 32) (s : State) : State :=
  tileHeld s pr lsid false noRefs (zeroArg arg) fun r _ => .tpinAtHome r true
def tunpinStep (pr : BitVec 2) (lsid : BitVec 5) (arg : BitVec 32) (s : State) : State :=
  tileHeld s pr lsid false noRefs (zeroArg arg) fun r _ => .tpinAtHome r false
def tmoveStep (pr : BitVec 2) (lsid : BitVec 5) (hbm : BitVec 1) (arg : BitVec 32) (s : State) : State :=
  tileHeld s pr lsid false noRefs (zeroArg arg) fun r _ => .tmoveAtHome r (hbm == 1)

/-! ## Forms on the local tiles -/

def tnewLocStep (pr : BitVec 2) (lsid : BitVec 5) (arg : BitVec 32) (s : State) : State :=
  let a := arg.toNat
  let size (b : Token) : Nat := bits (v64 b 0) 0 17
  let pend (b : Token) : Nat := bits (v64 b 0) 17 17
  let laddr (b : Token) : Nat := bits (v64 b 0) 34 17
  tileHeldLoc s pr lsid true noRefs
    (fun b => a / 2^12 == 0 && a / 2^8 % 16 < 8 && bits (v64 b 0) 51 13 == 0 && pend b ≤ size b)
    (fun b => laddr b % 64 == 0) (fun b => some (laddr b, size b))
    fun b => .tnew (size b) (pend b) (laddr b) (a % 2^8) (.ofNat 4 (a / 2^8))

/-- A local TLD or TWAIT: answered from the LVT at once, or parked on its entry (R245, R251). -/
def localRead' (s : State) (lsid : BitVec 5) (z : Nat) (r : LRead) : State :=
  let c := s.cur.1
  let t := s.cur.2.1
  let s := outstHere s lsid.toNat z none
  match lvtLook s c r.l r.v with
  | some a =>
    let ret := lvtRet s (s.src lsid) r a
    let s := if ret == .cause 0xD r.ref && a == .readable then lvtPoison s c r.l else s
    s.emit (.resultReturn none (s.src lsid) ret)
  | none =>
    let s := s.onBlock c t fun b => { b with
      outst := b.outst.map fun o => if o.idx == s.cur.2.2 then { o with parked := true } else o }
    lvtWaits ((setWait s c t s.cur.2.2 true).perf c 11 (some t)) c r.l

def tldLocStep (pr : BitVec 2) (lsid : BitVec 5) (size : BitVec 3) (last : BitVec 1) (t0 : BitVec 8) (arg : BitVec 32) (s : State) : State :=
  let z := sizeBytes size
  whenRead s true lsid fun s =>
  tileFire s pr true true (fun s => send1 (if last == 1 then arriveHere s lsid else s) t0 (loadNull z)) fun o s =>
    let x := v64 o.a 0
    let off := (v64 o.b 0).toNat + arg.toNat
    tileChecks s lsid x true [] (off < 2^28) (z != 64 || off % 64 == 0) none fun s =>
      localRead' s lsid z ⟨locTile x, .ofNat 16 (locVer x), x, some (off, z)⟩

def tstLocStep (pr : BitVec 2) (lsid : BitVec 5) (size : BitVec 3) (arg : BitVec 32) (s : State) : State :=
  let z := sizeBytes size
  tileHeldLoc s pr lsid true noRefs (fun b => tstOff z arg b < 2^28) (fun b => z != 64 || tstOff z arg b % 64 == 0) noStore
    fun b => .tst (tstOff z arg b) (tokBytes b z)
def tsealLocStep (pr : BitVec 2) (lsid : BitVec 5) (fin : BitVec 1) (arg : BitVec 32) (s : State) : State :=
  tileHeldLoc s pr lsid false noRefs (fun _ => arg.toNat / 2^28 % 8 == 0) always noStore
    fun _ => .tseal (fin == 1) (arg.getLsbD 31) (arg.toNat % 2^28)
def twaitLocStep (pr : BitVec 2) (lsid : BitVec 5) (t0 : BitVec 8) (arg : BitVec 32) (s : State) : State :=
  whenRead s true lsid fun s =>
  tileFire s pr true false (fun s => send1 s t0 (nullTok 0)) fun o s =>
    let x := v64 o.a 0
    tileChecks s lsid x true [] (arg == 0) true none fun s =>
      localRead' s lsid 0 ⟨locTile x, .ofNat 16 (locVer x), x, none⟩
def tqryLocStep (pr : BitVec 2) (lsid : BitVec 5) (t0 : BitVec 8) (arg : BitVec 32) (s : State) : State :=
  tileFire s pr true false (fun s => send1 s t0 (nullTok 2)) fun o s =>
    let x := v64 o.a 0
    tileChecks s lsid x true [] (arg == 0) true none fun s =>
      (outstHere s lsid.toNat 0 none).emit (.resultReturn none (s.src lsid) (.tok (lvtImage (s.lvt s.cur.1 (locTile x)))))
def tholdLocStep (pr : BitVec 2) (lsid : BitVec 5) (arg : BitVec 32) (s : State) : State :=
  tileHeldLoc s pr lsid false noRefs (zeroArg arg) always noStore fun _ => .thold
def trelLocStep (pr : BitVec 2) (lsid : BitVec 5) (arg : BitVec 32) (s : State) : State :=
  tileHeldLoc s pr lsid false noRefs (zeroArg arg) always noStore fun _ => .decrement
def tforkLocStep (pr : BitVec 2) (lsid : BitVec 5) (arg : BitVec 32) (s : State) : State :=
  let n (b : Token) : Nat := bits (v64 b 1) 0 17
  let size (b : Token) : Nat := bits (v64 b 1) 17 17
  let laddr (b : Token) : Nat := bits (v64 b 1) 34 17
  tileHeldLoc s pr lsid true ref0 (fun b => refsOnly arg 8 && bits (v64 b 1) 51 13 == 0 && n b ≤ size b)
    (fun b => laddr b % 64 == 0) (fun b => some (laddr b, size b))
    fun b => .tfork (locTile (v64 b 0)) (locVer (v64 b 0)) (n b) (size b) (laddr b) arg.toNat
def taliasLocStep (pr : BitVec 2) (lsid : BitVec 5) (arg : BitVec 32) (s : State) : State :=
  tileHeldLoc s pr lsid true ref0 (fun _ => refsOnly arg 8) always noStore
    fun b => .talias (locTile (v64 b 0)) (locVer (v64 b 0)) arg.toNat

/-! ## Meanings -/

/-- TNEW (R254). -/
def execTnew (pr : BitVec 2) (lsid : BitVec 5) (pin hbm : BitVec 1) (arg : BitVec 32) (s : State) : Out := .next (tnewStep pr lsid pin hbm arg s)
/-- TLD (R259). -/
def execTld (pr : BitVec 2) (lsid : BitVec 5) (size : BitVec 3) (last : BitVec 1) (t0 : BitVec 8) (arg : BitVec 32) (s : State) : Out :=
  .next (tldStep pr lsid size last t0 arg s)
/-- TST (R257). -/
def execTst (pr : BitVec 2) (lsid : BitVec 5) (size : BitVec 3) (arg : BitVec 32) (s : State) : Out := .next (tstStep pr lsid size arg s)
/-- TSEAL (R258). -/
def execTseal (pr : BitVec 2) (lsid : BitVec 5) (arg : BitVec 32) (s : State) : Out := .next (tsealWith false pr lsid arg s)
/-- TSEAL.end (R258). -/
def execTsealEnd (pr : BitVec 2) (lsid : BitVec 5) (arg : BitVec 32) (s : State) : Out := .next (tsealWith true pr lsid arg s)
/-- TWAIT (R260). -/
def execTwait (pr : BitVec 2) (lsid : BitVec 5) (t0 : BitVec 8) (arg : BitVec 32) (s : State) : Out := .next (twaitStep pr lsid t0 arg s)
/-- TQRY (R260). -/
def execTqry (pr : BitVec 2) (lsid : BitVec 5) (tile : BitVec 1) (t0 : BitVec 8) (arg : BitVec 32) (s : State) : Out :=
  .next (tqryStep pr lsid tile t0 arg s)
/-- THOLD (R261). -/
def execThold (pr : BitVec 2) (lsid : BitVec 5) (arg : BitVec 32) (s : State) : Out := .next (tholdStep pr lsid arg s)
/-- TREL (R261). -/
def execTrel (pr : BitVec 2) (lsid : BitVec 5) (arg : BitVec 32) (s : State) : Out := .next (trelStep pr lsid arg s)
/-- TFORK (R255). -/
def execTfork (pr : BitVec 2) (lsid : BitVec 5) (arg : BitVec 32) (s : State) : Out := .next (tforkStep pr lsid arg s)
/-- TALIAS (R256). -/
def execTalias (pr : BitVec 2) (lsid : BitVec 5) (arg : BitVec 32) (s : State) : Out := .next (taliasStep pr lsid arg s)
/-- TGUARD (R262). -/
def execTguard (pr : BitVec 2) (lsid : BitVec 5) (arg : BitVec 32) (s : State) : Out := .next (tguardStep pr lsid arg s)
/-- TSUB (R263). -/
def execTsub (pr : BitVec 2) (lsid : BitVec 5) (arg : BitVec 32) (s : State) : Out := .next (tsubStep pr lsid arg s)
/-- TPIN (R264). -/
def execTpin (pr : BitVec 2) (lsid : BitVec 5) (arg : BitVec 32) (s : State) : Out := .next (tpinStep pr lsid arg s)
/-- TUNPIN (R264). -/
def execTunpin (pr : BitVec 2) (lsid : BitVec 5) (arg : BitVec 32) (s : State) : Out := .next (tunpinStep pr lsid arg s)
/-- TMOVE (R264). -/
def execTmove (pr : BitVec 2) (lsid : BitVec 5) (hbm : BitVec 1) (arg : BitVec 32) (s : State) : Out := .next (tmoveStep pr lsid hbm arg s)
/-- TNEW.loc (R254, R245). -/
def execTnewLoc (pr : BitVec 2) (lsid : BitVec 5) (arg : BitVec 32) (s : State) : Out := .next (tnewLocStep pr lsid arg s)
/-- TLD.loc (R259, R245). -/
def execTldLoc (pr : BitVec 2) (lsid : BitVec 5) (size : BitVec 3) (last : BitVec 1) (t0 : BitVec 8) (arg : BitVec 32) (s : State) : Out :=
  .next (tldLocStep pr lsid size last t0 arg s)
/-- TST.loc (R257, R245). -/
def execTstLoc (pr : BitVec 2) (lsid : BitVec 5) (size : BitVec 3) (arg : BitVec 32) (s : State) : Out := .next (tstLocStep pr lsid size arg s)
/-- TSEAL.loc (R258, R245). -/
def execTsealLoc (pr : BitVec 2) (lsid : BitVec 5) (fin : BitVec 1) (arg : BitVec 32) (s : State) : Out :=
  .next (tsealLocStep pr lsid fin arg s)
/-- TWAIT.loc (R260, R245). -/
def execTwaitLoc (pr : BitVec 2) (lsid : BitVec 5) (t0 : BitVec 8) (arg : BitVec 32) (s : State) : Out := .next (twaitLocStep pr lsid t0 arg s)
/-- TQRY.loc (R260, R244). -/
def execTqryLoc (pr : BitVec 2) (lsid : BitVec 5) (t0 : BitVec 8) (arg : BitVec 32) (s : State) : Out := .next (tqryLocStep pr lsid t0 arg s)
/-- THOLD.loc (R261, R245). -/
def execTholdLoc (pr : BitVec 2) (lsid : BitVec 5) (arg : BitVec 32) (s : State) : Out := .next (tholdLocStep pr lsid arg s)
/-- TREL.loc (R261, R245). -/
def execTrelLoc (pr : BitVec 2) (lsid : BitVec 5) (arg : BitVec 32) (s : State) : Out := .next (trelLocStep pr lsid arg s)
/-- TFORK.loc (R255, R245). -/
def execTforkLoc (pr : BitVec 2) (lsid : BitVec 5) (arg : BitVec 32) (s : State) : Out := .next (tforkLocStep pr lsid arg s)
/-- TALIAS.loc (R256, R245). -/
def execTaliasLoc (pr : BitVec 2) (lsid : BitVec 5) (arg : BitVec 32) (s : State) : Out := .next (taliasLocStep pr lsid arg s)

end Sys2Proof.Machine
end

