-- ==== Sys2Proof/Machine/SysReg.lean ====
section
/-! DEFINITION. The system registers (R96-R101): their values, what a write does, SYSRD and SYSWR (R103), and the writes
that reach a module or slice register (R185, R279, R362, R409). -/

namespace Sys2Proof.Machine

/-! ## Values -/

/-- Strand registers 0x000-0x009 (R97). -/
def strandReg (d : Strand) (i : Nat) : Word :=
  match i with
  | 0 => d.status | 1 => d.tcause | 2 => d.tval | 3 => d.tblk | 4 => d.tlsid | 5 => d.ttime | 6 => d.nflag
  | 7 => d.fpmode | 8 => d.cycles | _ => d.blocks

/-- Core registers 0x100-0x128 (R99). -/
def coreReg (k : Core) (i : Nat) : Word :=
  if i = 0x100 then k.asid.zeroExtend 64
  else if i = 0x101 then k.lut4a
  else if i = 0x102 then k.lut4b
  else if i < 0x118 then k.win (i - 0x110)
  else if i < 0x120 then .ofNat 64 (k.wscaleOf (i - 0x118))
  else match i with
    | 0x120 => k.protbase.zeroExtend 64
    | 0x121 => k.protlimit.zeroExtend 64
    | 0x122 => k.htab
    | 0x123 => k.hstrands.zeroExtend 64
    | 0x124 => k.trapvec
    | 0x125 => k.chcfg.zeroExtend 64
    | 0x126 => k.matcfg.zeroExtend 64
    | 0x127 => k.priomask.zeroExtend 64
    | _ => k.slsel.zeroExtend 64

/-- THRMSTAT (R409). -/
def thrmstat (t : Thermal) : Word :=
  let temps := (List.range 4).map fun d => (aget t.temp d 0).toNat * 2^(8 * d)
  let lvls := (List.range 4).map fun d => aget t.lvl d 0 * 2^(32 + 3 * d)
  .ofNat 64 ((temps ++ lvls).foldl (· + ·) 0 + (if t.phit then 2^44 else 0) + 2^48 * t.sag.toNat)
/-- THRMLIM (R409). -/
def thrmlim (t : Thermal) : Word := .ofNat 64 (t.tlim.toNat + (if t.en then 2^8 else 0) + 2^16 * t.plim.toNat)
/-- THRMRANK (R362). -/
def thrmrank (t : Thermal) : Word := .ofNat 64 ((if t.rankEn then 1 else 0) + 2 * t.rankLimit.toNat)

/-- EMPTY of a way (R185): no granule of a version, and, for a way that may hold a line, a free bit; a way found empty
holds none from then on. -/
def wayEmpty (s : State) (k w : Nat) : Bool × State :=
  let sl := s.slice k
  if sl.vers.any fun e => inWay e w then (false, s)
  else if !sl.maybe.getLsbD w then (true, s)
  else
    let (e, s) := s.drawBit
    (e, if e then keepWays s k (~~~(BitVec.ofNat 16 (2^w))) else s)

/-- EMPTY of all ways. -/
def emptyWays (s : State) (k : Nat) : BitVec 16 × State :=
  (List.range 16).foldl (fun (m, s) w =>
    let (e, s) := wayEmpty s k w
    (if e then m ||| .ofNat 16 (2^w) else m, s)) (0, s)

/-- WAYMASK (R184). -/
def waymask (s : State) (k : Nat) : Word × State :=
  let (e, s) := emptyWays s k
  let sl := s.slice k
  let busy := (sl.flush &&& ~~~e) != 0
  (.ofNat 64 (sl.tile.toNat + 2^16 * sl.flush.toNat + 2^32 * e.toNat + (if busy then 2^48 else 0)), s)

/-- SLERR (R407). -/
def slerr (sl : Slice) : Word := .ofNat 64 (sl.ce.toNat + 2^16 * sl.ue.toNat)

/-- TIMEBASE as a strand of a die reads it: the die's copy, at most 4 ns ahead of the slowest, and never below a value that a strand
has read (R401; log 51, DESIGN CHOICE). -/
def dieTime (s : State) (die : Nat) : Word := .ofNat 64 (max s.timeRead.toNat (s.timebase.toNat + Config.dieSkew die % 5))

/-- Module and slice registers that a read returns to the strand from (R101). -/
def farReg (s : State) (i slice : Nat) : Word × State :=
  match i with
  | 0x201 => (thrmstat s.thermal, s)
  | 0x202 => (thrmlim s.thermal, s)
  | 0x203 => (thrmrank s.thermal, s)
  | 0x210 => (s.ldcfg.zeroExtend 64, s)
  | 0x300 => waymask s slice
  | _ => (slerr (s.slice slice), s)

/-- The value of a register as a strand reads it (R103). -/
def sysValue (s : State) (c t i : Nat) : Word × State :=
  if i < 0x100 then (strandReg (s.strand c t) i, s)
  else if i < 0x200 then (coreReg (s.core c) i, s)
  else if i = 0x200 then (dieTime s (coreDie c), { s with timeRead := dieTime s (coreDie c) })
  else farReg s i (s.core c).slsel.toNat

/-! ## Reach (R96) -/

/-- User mode may read the register. -/
def userReads (i : Nat) : Bool := i ≤ 0x200
/-- A user write of the register raises nothing: an RW or W1C register is written, and a write of an RO or HW register (MATCFG,
TIMEBASE, THRMSTAT, SLERR) is ignored in either mode (R11, R96; log 63, DEDUCED). -/
def userWrites (i : Nat) : Bool :=
  i == 6 || i == 7 || i == 0x101 || i == 0x102 || (0x111 ≤ i && i < 0x120) || i == 0x126 || i == 0x200 || i == 0x201 || i == 0x301

/-! ## Writes -/

/-- Bytes of a written value: a null byte is the register's current byte (R103). -/
def mergeWord (cur : Word) (t : Token) : Word := .ofNat 64 (mergeBytes 8 cur.toNat t)

/-- TBLK_WRITE: a SYSWR of TBLK also sets RESUME (R381). -/
def tblkWriteStep (core strand : Nat) (v : Word) (s : State) : State :=
  s.onStrand core strand fun d => { d with tblk := v, resume := v &&& ~~~63 }

/-- A write of a strand register (R97). -/
def writeStrandReg (s : State) (c t i : Nat) (v : Word) : State :=
  match i with
  | 0 => s.onStrand c t fun d => { d with status := v &&& 0x307 }
  | 1 => s.onStrand c t fun d => { d with tcause := v &&& 0xFFFF }
  | 2 => s.onStrand c t fun d => { d with tval := v }
  | 3 => tblkWriteStep c t v s
  | 4 => s.onStrand c t fun d => { d with tlsid := v &&& 0x3F }
  | 5 => s.onStrand c t fun d => { d with ttime := v &&& 0xFFFFFFFFFF }
  | 6 => s.onStrand c t fun d => { d with nflag := d.nflag &&& ~~~(v &&& 1) }
  | 7 => s.onStrand c t fun d => { d with fpmode := v &&& 7 }
  | 8 => s.onStrand c t fun d => { d with cycles := v }
  | _ => s.onStrand c t fun d => { d with blocks := v }

/-- Channel enables towards a die edge read 0 (R25). -/
def edgeMask (c : Nat) : BitVec 4 :=
  (List.range 4).foldl (fun (m : BitVec 4) d => if (neighbour c d).isSome then m ||| .ofNat 4 (2^d) else m) 0

/-- A write of a core register (R99); its reserved bits stay 0 (R12, R178), and an ASID change invalidates the L1 (R181). -/
def writeCoreReg (s : State) (c i : Nat) (v : Word) : State :=
  let s := if i = 0x100 && (s.core c).asid != v.truncate 16 then l1Forget s c fun _ _ => true else s
  s.onCore c fun k =>
    if i = 0x100 then { k with asid := v.truncate 16 }
    else if i = 0x101 then { k with lut4a := v }
    else if i = 0x102 then { k with lut4b := v }
    else if i < 0x118 then { k with wincfg := k.wincfg.setIfInBounds (i - 0x111) (v &&& 0x7FFFFFFFF) }
    else if i < 0x120 then { k with wscale := k.wscale.setIfInBounds (i - 0x119) (v.truncate 17) }
    else match i with
      | 0x120 => { k with protbase := v.truncate 17 }
      | 0x121 => { k with protlimit := v.truncate 18 }
      | 0x122 => { k with htab := v &&& ~~~63 }
      | 0x123 => { k with hstrands := v.truncate 16 }
      | 0x124 => { k with trapvec := v &&& ~~~63 }
      | 0x125 => { k with chcfg := v.truncate 4 &&& edgeMask c }
      | 0x127 => { k with priomask := v.truncate 8 }
      | 0x128 => { k with slsel := v.truncate 8 }
      | _ => k

/-- A module or slice register that SYSWR changes. -/
def farWritable (i : Nat) : Bool := i == 0x202 || i == 0x203 || i == 0x210 || i == 0x300

/-- One held SYSWR at the commit of its block (R103). -/
def applySyswr (s : State) (c t : Nat) (src : Src) (w : BitVec 12 × BitVec 8 × Token) : State :=
  let i := w.1.toNat
  let tk := w.2.2
  if i < 0x100 then writeStrandReg s c t i (mergeWord (strandReg (s.strand c t) i) tk)
  else if i < 0x200 then writeCoreReg s c i (mergeWord (coreReg (s.core c) i) tk)
  else if !farWritable i then s
  else
    let v := v64 tk 0
    let n : BitVec 8 := .ofNat 8 tk.nul.toNat
    let s := s.onStrand c t fun d => { d with ackRegs := d.ackRegs + 1 }
    s.emit (if i == 0x300 then .waymaskWrite w.2.1.toNat v n src else .moduleRegisterWrite w.1 v n src)

/-- The home of a register has acknowledged the write (R103). -/
def ackReg (s : State) (src : Src) : State :=
  s.onStrand src.core src.strand fun d => { d with ackRegs := d.ackRegs - 1 }

/-- A written value with the bytes that are null taken from the current one. -/
def overWord (cur v : Word) (n : BitVec 8) : Word := mergeWord cur ⟨v.zeroExtend 512, n.zeroExtend 64⟩

/-- MODULE_REGISTER_WRITE (R103): THRMLIM, THRMRANK or LDCFG. -/
def moduleRegisterWriteStep (index : BitVec 12) (v : Word) (nulls : BitVec 8) (src : Src) (s : State) : State :=
  let t := s.thermal
  let s := match index.toNat with
    | 0x202 =>
      let x := overWord (thrmlim t) v nulls
      { s with thermal := { t with tlim := x.truncate 8, en := x.getLsbD 8, plim := .ofNat 12 (bits x 16 12) } }
    | 0x203 =>
      let x := overWord (thrmrank t) v nulls
      { s with thermal := { t with rankEn := x.getLsbD 0, rankLimit := .ofNat 3 (bits x 1 3) } }
    | _ => { s with ldcfg := (overWord (s.ldcfg.zeroExtend 64) v nulls).truncate 14 }
  ackReg s src

/-- WAYMASK_WRITE (R185): FLUSH takes effect; TILE changes only if every way it changes drains and is empty, and FLUSH
of those ways is then cleared. -/
def waymaskWriteStep (k : Nat) (v : Word) (nulls : BitVec 8) (src : Src) (s : State) : State :=
  let sl := s.slice k
  let x := overWord (.ofNat 64 (sl.tile.toNat + 2^16 * sl.flush.toNat)) v nulls
  let tile : BitVec 16 := .ofNat 16 (bits x 0 16)
  let flush : BitVec 16 := .ofNat 16 (bits x 16 16)
  let changed := tile ^^^ sl.tile
  let (e, s) := emptyWays s k
  let s := if (changed &&& ~~~(flush &&& e)) == 0 then
      keepWays (s.onSlice k fun y => { y with tile := tile, flush := flush &&& ~~~changed }) k (~~~changed)
    else s.onSlice k fun y => { y with flush := flush }
  ackReg (pullPinned s k) src

/-! ## SYSRD and SYSWR -/

/-- SYSRD (R103): a register of the strand or core and TIMEBASE are read in the firing cycle, any other returns. -/
def sysrdStep (pr : BitVec 2) (imm : BitVec 12) (t0 : BitVec 8) (s : State) : State :=
  fire0 s pr fun _ s =>
    let i := imm.toNat
    if s.user && !userReads i then faultHere s 0x12 (imm.zeroExtend 64) none
    else
      let (v, s) := sysValue s s.cur.1 s.cur.2.1 i
      if i ≤ 0x200 then send1 s t0 (dTok v.toNat)
      else (outstHere s 0 0 none).emit (.resultReturn none (s.src 0) (.tok (dTok v.toNat)))

/-- SYSWR (R103): held until commit. -/
def syswrStep (pr : BitVec 2) (imm : BitVec 12) (s : State) : State :=
  fireA s pr fun o s =>
    if s.user && !userWrites imm.toNat then faultHere s 0x12 (imm.zeroExtend 64) none
    else if allNull o.a 8 then s
    else s.onBlock s.cur.1 s.cur.2.1 fun b => { b with sysw := b.sysw ++ [(s.cur.2.2, imm, (s.core s.cur.1).slsel, o.a)] }

/-- SYSRD (R103). -/
def execSysrd (pr : BitVec 2) (imm : BitVec 12) (t0 : BitVec 8) (s : State) : Out := .next (sysrdStep pr imm t0 s)
/-- SYSWR (R103). -/
def execSyswr (pr : BitVec 2) (imm : BitVec 12) (s : State) : Out := .next (syswrStep pr imm s)
/-- TBLK_WRITE (R381). -/
def execTblkWrite (s : State) : Out := .next (match s.packet with | .tblkWrite c t v => tblkWriteStep c t v s | _ => s)
/-- MODULE_REGISTER_WRITE (R103). -/
def execModuleRegisterWrite (s : State) : Out :=
  .next (match s.packet with | .moduleRegisterWrite i v n src => moduleRegisterWriteStep i v n src s | _ => s)
/-- WAYMASK_WRITE (R185). -/
def execWaymaskWrite (s : State) : Out :=
  .next (match s.packet with | .waymaskWrite k v n src => waymaskWriteStep k v n src s | _ => s)

end Sys2Proof.Machine
end

