-- ==== Sys2Proof/Machine/Channel.lean ====
section
/-! DEFINITION. Neighbour channels and MSEND (R331-R336): the forms when they fire. -/

namespace Sys2Proof.Machine

/-- The direction may be used (R333): its CHCFG bit is 1 and the neighbour core has this core's ASID. -/
def dirOk (s : State) (c dir : Nat) : Bool :=
  (s.core c).chcfg.getLsbD dir &&
    match neighbour c dir with
    | some n => (s.core n).asid == (s.core c).asid
    | none => false

/-- The firing in progress already waits: its direction was checked before. -/
def waitsHere (s : State) : Bool :=
  match s.curBlock with
  | some b => b.waits.contains s.cur.2.2
  | none => false

/-- The pops of the block on a direction with a lower LSID. -/
def lowerPops (b : Block) (dir lsid : Nat) : List (Nat × Slot) :=
  b.instrs.filter fun (_, sl) =>
    majorOf sl.word == 0x78 && wf sl.word 15 3 == 0 && wf sl.word 8 2 == dir && lsidOf sl.word < lsid

/-- The place of an operation behind the committed head (R51), once the lower pops have fired or never will. -/
def popPlace (b : Block) (dir lsid : Nat) : Option Nat :=
  let ps := lowerPops b dir lsid
  let done (p : Nat × Slot) : Bool := p.2.fired || b.waits.contains p.1
  if ps.all fun p => done p || voidSlot p.2 then some (ps.filter done).length else none

/-- Entries that a pop may see (R333): those written in cycles before this one. -/
def seen (s : State) (h : Chan) : List Token := (h.ents.filter fun e => e.1 < s.cycle).map (·.2)

/-- An operation of the block waits for a channel that another strand's block has claimed: until it has it, the block takes no new
claim, so that no two blocks wait on each other's (R51). -/
def claimWaits (s : State) (c t : Nat) (b : Block) : Bool :=
  b.waits.any fun i => match b.slots[i]? with
    | some sl => majorOf sl.word == 0x78 && wf sl.word 15 3 < 2 &&
        (match ((s.core c).chan (wf sl.word 8 2)).claim with | some u => u != t | none => false)
    | none => false

/-- A pop or peek that has passed its check: it waits, its block starts again with no counter but CYCLES changed, or it reads
(R51). -/
def popTry (s : State) (pop : Bool) (dir : Nat) (lsid : BitVec 5) (pr : BitVec 2) : State :=
  let c := s.cur.1
  let t := s.cur.2.1
  let i := s.cur.2.2
  match s.curBlock with
  | none => s
  | some b =>
    match popPlace b dir lsid.toNat with
    | none => s
    | some n =>
      let h := (s.core c).chan dir
      if h.claim.isSome && h.claim != some t then
        (if b.claims.isEmpty then setWait s c t i true else flushQuiet s c t)
      else if h.claim.isNone && claimWaits s c t b then s
      else
        let s := if h.claim.isSome then s
          else (s.onChan c dir fun h => { h with claim := some t }).onBlock c t fun b => { b with claims := b.claims ++ [(dir, 0)] }
        match (seen s h)[n]? with
        | none => setWait s c t i true
        | some e =>
          fire0 (setWait s c t i false) pr fun _ s =>
            let s := if pop then s.onBlock c t fun b => { b with
                claims := b.claims.map fun x => if x.1 == dir then (dir, x.2 + 1) else x }
              else s
            (outstHere s lsid.toNat 64 none).emit (.resultReturn none (s.src lsid) (.tok e))

/-- CHPOP and CHPEK (R333): the check, when the form fires, precedes everything. They are reads, and fire where the fences and
acquires before them let them (R190, R199). -/
def popStep (pop : Bool) (pr : BitVec 2) (lsid : BitVec 5) (dir : BitVec 2) (s : State) : State :=
  match s.curBlock.filter fun b =>
    (readyOps b s.cur.2.2 false false false false pr).isSome && mayPop s s.cur.1 s.cur.2.1 b lsid.toNat with
  | none => s
  | some _ =>
    if !waitsHere s && !dirOk s s.cur.1 dir.toNat then faultHere s 8 (dir.zeroExtend 64) (some lsid.toNat)
    else popTry s pop dir.toNat lsid pr

def chpopStep (pr : BitVec 2) (lsid : BitVec 5) (dir : BitVec 2) (s : State) : State := popStep true pr lsid dir s
def chpekStep (pr : BitVec 2) (lsid : BitVec 5) (dir : BitVec 2) (s : State) : State := popStep false pr lsid dir s

/-- CHPSH (R333): a push that finds no free, unreserved entry waits (R52). -/
def chpshStep (pr : BitVec 2) (lsid : BitVec 5) (dir : BitVec 2) (s : State) : State :=
  let c := s.cur.1
  let d := dir.toNat
  match s.curBlock.bind fun b => readyOps b s.cur.2.2 true false false false pr with
  | none => s
  | some o =>
    if !waitsHere s && !dirOk s c d then faultHere s 8 (dir.zeroExtend 64) (some lsid.toNat)
    else if allNull o.a 64 then fireA s pr fun _ s => arriveHere s lsid
    else match neighbour c d with
      | none => s
      | some n =>
        let h := (s.core n).chan (opposite d)
        if 8 ≤ h.ents.length + h.resv then setWait s c s.cur.2.1 s.cur.2.2 true
        else fireA (setWait s c s.cur.2.1 s.cur.2.2 false) pr fun o s =>
          let s := s.onChan n (opposite d) fun h => { h with resv := h.resv + 1 }
          let s := s.onBlock c s.cur.2.1 fun b => { b with resv := b.resv ++ [d] }
          holdHere s lsid (.push d o.a)

/-- MSEND (R336). -/
def msendStep (pr : BitVec 2) (lsid : BitVec 5) (cls : BitVec 4) (s : State) : State :=
  fireAB s pr fun o s =>
    let x := v64 o.a 0
    if anyNull o.a 0 8 || allNull o.b 64 then arriveHere s lsid
    else if bits x 13 51 != 0 || (s.user && isSup (bits x 0 13)) then faultHere s 8 x (some lsid.toNat)
    else holdHere s lsid (.send (bits x 0 13) cls.toNat o.b.pay)

/-- CHPOP (R333). -/
def execChpop (pr : BitVec 2) (lsid : BitVec 5) (dir : BitVec 2) (_t0 : BitVec 8) (s : State) : Out := .next (chpopStep pr lsid dir s)
/-- CHPEK (R333). -/
def execChpek (pr : BitVec 2) (lsid : BitVec 5) (dir : BitVec 2) (_t0 : BitVec 8) (s : State) : Out := .next (chpekStep pr lsid dir s)
/-- CHPSH (R333). -/
def execChpsh (pr : BitVec 2) (lsid : BitVec 5) (dir : BitVec 2) (s : State) : Out := .next (chpshStep pr lsid dir s)
/-- MSEND (R336). -/
def execMsend (pr : BitVec 2) (lsid : BitVec 5) (cls : BitVec 4) (s : State) : Out := .next (msendStep pr lsid cls s)

end Sys2Proof.Machine
end

