-- ==== Sys2Proof/Machine/Message.lean ====
section
/-! DEFINITION. Active messages and trap messages on their way, and the start of handlers (R335-R339, R386, R387). -/

namespace Sys2Proof.Machine

/-! ## Arrival (R337) -/

/-- Messages of one class in a core's queues. -/
def classLen (k : Core) (cls : Nat) : Nat := (k.msgs.filter fun m => m.cls == cls).length

/-- A refused message is sent again later; it stays ahead of what its sender sends to that core and class (R337). -/
def refuse (s : State) (m : Msg) (delay : Nat) : State :=
  { s with due := .messageRetry m (s.cycle + delay) (min 8192 (2 * delay)) :: s.due }

/-- The save area of an ASID (R396); none where its directory entry is poisoned (log 68, DESIGN CHOICE). -/
def saveArea (s : State) (asid : BitVec 16) : Option Nat :=
  let e := physWord s (2^19 + 8 * asid.toNat)
  if !poisoned s (2^19 + 8 * asid.toNat) && e.getLsbD 0 && bits e 1 11 == 0 && bits e 51 13 == 0 && inHbm (bits e 12 39 * 2^12)
  then some (bits e 12 39 * 2^12) else none

/-- Bytes written at physical addresses, line by line. -/
def physWriteAll (s : State) (pa : Nat) (d : List Byte) : Nat → State
  | 0 => s
  | k + 1 =>
    if d.isEmpty then s
    else
      let n := min d.length (128 - pa % 128)
      physWriteAll (physWrite s pa ((d.take n).map some)) (pa + n) (d.drop n) k
def putBytes (s : State) (pa : Nat) (d : List Byte) : State := physWriteAll s pa d (d.length / 128 + 2)

/-- `n` free bytes are written: what they hold is open (log 9, DESIGN CHOICE). -/
def putFree (s : State) (pa n : Nat) : State :=
  let (x, s) := s.drawBelow (256^n)
  putBytes s pa (leBytes x n)

/-- The spilled messages of an ASID change. Their count stands in the save area; the head and the bytes of the ring are free, since
the spec lays out no message there (R335, R396; log 9, DESIGN CHOICE). -/
def putSpill (s : State) (asid : BitVec 16) (q : List Spilled) : State :=
  let s := { s with spill := aput s.spill asid.toNat q }
  match saveArea s asid with
  | some a =>
    let (head, s) := s.drawBelow 256
    putFree (putBytes s a (leBytes q.length 8 ++ leBytes head 8)) (a + 0x1000) 0x8000
  | none => s

/-- A message is spilled for an image, if its ASID has a save area with room (R337). -/
def spillMsg (s : State) (m : Msg) (image : Option (Nat × Nat)) : Option State :=
  let q := aget s.spill m.asid.toNat []
  if q.length < 256 && (saveArea s m.asid).isSome then some (putSpill s m.asid (q ++ [⟨m, image, none⟩])) else none

/-- The image that a message arriving for a core belongs to (R337); of several saved from that core, the last (log 65, DESIGN
CHOICE). -/
def imageFor (s : State) (m : Msg) : Option (Nat × Nat) :=
  ((s.saved.filter fun v => v.from_ == m.dest && v.asid == m.asid).getLast?).map fun v => (v.frame, v.k)

/-- A launch has the core. -/
def hasCore (l : Launch) (c : Nat) : Bool := match l.lease with | some (cs, _) => cs.contains (c / 4) | none => false

/-- The context of an ASID that the core held is saved, and no lease has the core but the one that is being saved with it (R337,
R340). -/
def switchedOut (s : State) (core : Nat) (asid : BitVec 16) : Bool :=
  s.saved.any fun v => v.from_ == core && v.asid == asid &&
    s.launches.all fun l => !hasCore l core || (l.preempting && l.asid == asid && l.saved == some v.frame)

/-- A message reaches its destination's network interface (R337); MESSAGE_SPILL is its first case. -/
def receive (s : State) (m : Msg) (delay : Nat) : State :=
  let k := s.core m.dest
  if !m.trap && (k.asid != m.asid || switchedOut s m.dest m.asid) then
    (spillMsg s m (imageFor s m)).getD (refuse s m delay)
  else if 8 ≤ classLen k m.cls then refuse s m delay
  else s.onCore m.dest fun k => { k with msgs := k.msgs ++ [m] }

/-- MESSAGE_ARRIVAL (R337). -/
def messageArrivalStep (m : Msg) (s : State) : State := receive s m 64
/-- MESSAGE_RETRY (R337). -/
def messageRetryStep (m : Msg) (delay : Nat) (s : State) : State := receive s m delay

/-- Spilled messages that a restore has given to this core enter its class queues while they have room (R337). -/
def drainSpill (s : State) (c : Nat) : State :=
  let asid := (s.core c).asid
  (aget s.spill asid.toNat []).foldl (fun s e =>
    if e.into == some c && classLen (s.core c) e.msg.cls < 8 then
      (putSpill s asid ((aget s.spill asid.toNat []).erase e)).onCore c fun k => { k with msgs := k.msgs ++ [e.msg] }
    else s) s

/-! ## Trap messages (R386, R387) -/

/-- The payload of a trap message (R386). -/
def trapPayload (m : TrapMsg) : Vec :=
  let bytes : List Byte := leBytes m.kind 1 ++ leBytes m.cause.toNat 1 ++ leBytes m.asid.toNat 2 ++ leBytes m.row 1 ++
    leBytes m.die 1 ++ leBytes m.code.toNat 2 ++ leBytes m.tval.toNat 8 ++ leBytes m.cores.toNat 16 ++
    leBytes m.tblk.toNat 8 ++ leBytes m.ttime.toNat 5 ++ leBytes 0 3 ++ leBytes m.count 2
  .ofNat 512 (leNat bytes)

/-- Two KIND 1 messages with the same key may be merged (R387). -/
def sameKey (a b : TrapMsg) : Bool :=
  a.kind == 1 && b.kind == 1 && a.die == b.die && a.row == b.row && a.asid == b.asid && bits a.tval 21 43 == bits b.tval 21 43
def mergeMsgs (first other : TrapMsg) : TrapMsg :=
  { first with cores := first.cores ||| other.cores, count := (first.count + other.count) % 2^16 }

/-- The supervisor core a collector passes messages to (R386). -/
def supervisorOf (m : TrapMsg) : Nat := m.die * 2048 + m.row % 4

/-- A trap message enters the class-15 queue of its supervisor core; whose core and strand g31 names is open (R338, log 29,
DESIGN CHOICE), its time is that of the message (R402). -/
def passOn (s : State) (m : TrapMsg) : State :=
  let (core, s) := s.drawBelow 8192
  let (strand, s) := s.drawBelow 16
  let dest := supervisorOf m
  s.onCore dest fun k => { k with msgs := k.msgs ++ [⟨dest, 15, trapPayload m, core, strand, m.time, m.asid, true⟩] }

/-- A trap message in flight of the same key, to merge with. -/
def mergeDue (m : TrapMsg) : List Packet → Option (List Packet)
  | [] => none
  | .trapMessageAtCollector o :: ps =>
    if sameKey m o then some (.trapMessageAtCollector (mergeMsgs m o) :: ps)
    else (mergeDue m ps).map (.trapMessageAtCollector o :: ·)
  | p :: ps => (mergeDue m ps).map (p :: ·)

/-- Into a held message of the same key, where there is one. -/
def mergeHeld (m : TrapMsg) : List TrapMsg → Option (List TrapMsg)
  | [] => none
  | o :: os => if sameKey o m then some (mergeMsgs o m :: os) else (mergeHeld m os).map (o :: ·)

/-- The collector of a trap message. -/
def collectorOf (m : TrapMsg) : Nat := m.die * 16 + m.row

/-- The collector can take the message: it passes it on at once, or holds fewer than 64 (R386). -/
def collectorRoom (s : State) (m : TrapMsg) : Bool := decide ((aget s.collectors (collectorOf m) []).length < 64)

/-- TRAP_MESSAGE_AT_COLLECTOR (R386); merging is free (R387). One that finds the collector full stays on the TRAP channel, where it
may merge. -/
def trapMessageAtCollectorStep (m : TrapMsg) (s : State) : State :=
  let key := collectorOf m
  let q := aget s.collectors key []
  match mergeDue m s.due, mergeHeld m q with
  | some due, _ =>
    let (yes, s) := s.drawBit
    if yes then { s with due := due } else arriveAt s key q
  | none, some q' =>
    let (yes, s) := s.drawBit
    if yes then { s with collectors := aput s.collectors key q' } else arriveAt s key q
  | none, none => arriveAt s key q
where
  arriveAt (s : State) (key : Nat) (q : List TrapMsg) : State :=
    if q.isEmpty && classLen (s.core (supervisorOf m)) 15 < 8 then passOn s m
    else if !collectorRoom s m then { s with due := .trapMessageAtCollector m :: s.due }
    else { s with collectors := aput s.collectors key (q ++ [m]) }

/-- A collector passes on its oldest message when the queue of its supervisor core has room; which of the rows that share
the core goes first is free. -/
def drainCollectors (s : State) (core : Nat) : State :=
  if !isSup core || 8 ≤ classLen (s.core core) 15 then s
  else
    let keys := (s.collectors.filter fun e => !e.2.isEmpty && e.1 / 16 == coreDie core && e.1 % 4 == corePos core).map (·.1)
    if keys.isEmpty then s
    else
      let (i, s) := s.drawBelow keys.length
      let key := keys.getD i 0
      match aget s.collectors key [] with
      | [] => s
      | m :: rest => passOn { s with collectors := aput s.collectors key rest } m

/-! ## Handlers (R338) -/

/-- The strand may take a message: eligible, which it is again from the cycle after its HRET's commit on (R339), and at a boundary
or idle, with no report or interrupt that goes first. -/
def takesMessage (s : State) (c t : Nat) : Bool :=
  let d := s.strand c t
  (s.core c).hstrands.getLsbD t && !d.hnd && !s.thisCycle.hrets.contains (c, t) && statusIE d.status && !d.halting && d.preempt.isNone &&
    (nextTrap (s.core c).priomask d).isNone &&
    (match d.phase with
     | .idle => d.block.isNone
     | .boundary | .wfi .. => d.ackRegs = 0
     | _ => false)

/-- The message that goes first: the lowest class, each class in order. -/
def firstMsg (k : Core) : Option Msg :=
  k.msgs.foldl (fun p m => match p with | none => some m | some q => if m.cls < q.cls then some m else p) none

/-- A read of global memory of this module or the host that no strand waits for (HTAB, and what commands fetch): the bytes,
none where it fails. -/
def readGlobal (s : State) (g : Word) (asid : BitVec 16) (user : Bool) (core : Option Nat) (n : Nat) :
    Option (List Byte) × State :=
  let g := s.norm g
  if !fieldsOk g || isRemote g then (none, s)
  else match xlate s g asid user false false core with
    | (.error _, s) => (none, s)
    | (.ok (leaf, pa), s) =>
      match memOp s leaf pa (.read 0 n false) with
      | (.data d, s) => (some d, s)
      | (_, s) => (none, s)

/-- The sender identity of a handler (R338). -/
def senderWord (m : Msg) : Word := .ofNat 64 (m.core + 2^13 * m.strand + 2^17 * m.cls + 2^24 * m.time.toNat)

/-- The HTAB entry of a message that strand `t` takes (R338). -/
def htabAt (s : State) (c t : Nat) (m : Msg) : Word × Bool :=
  ((s.core c).htab + .ofNat 64 (8 * m.cls), !statusMode (s.strand c t).status)

/-- What `Core.htabRead` is kept under: the entry's address, whose low bits are 0, and in bit 0 the mode of the read. -/
def htabKey (x : Word × Bool) : Word := if x.2 then x.1 ||| 1 else x.1

/-- A handler starts on strand `t` with its HTAB entry, or its message is dropped and counted (R338, R406). -/
def startHandler (s : State) (c t : Nat) (m : Msg) (e : Option Word) : State :=
  match e with
  | none => s.count 1
  | some x =>
    if !x.getLsbD 0 then s.count 1
    else s.onStrand c t fun d => { d with
      rbpc := if d.live then some d.bpc else none
      hnd := true
      v := d.v.setIfInBounds 15 m.pay
      g := d.g.setIfInBounds 31 (senderWord m)
      bpc := x &&& ~~~63
      phase := .entering }

/-- The message leaves its queue, its handler starts, and what waited for the room in the queue follows. -/
def takeMessage (s : State) (c t : Nat) (m : Msg) (e : Option Word) : State :=
  let s := s.onCore c fun k => { k with msgs := k.msgs.erase m, htabRead := none }
  drainSpill (drainCollectors (startHandler s c t m e) c) c

/-- HANDLER_START (R338): the lowest class's oldest message to the lowest eligible strand. An entry in another device is read over
the link first, and the handler starts with the answer (R344). -/
def handlerStartStep (c : Nat) (s : State) : State :=
  match firstMsg (s.core c), (List.range 16).find? fun t => takesMessage s c t with
  | some m, some t =>
    let (g, user) := htabAt s c t m
    let g := s.norm g
    if !(isRemote g && addrOk s g) then
      let (d, s) := readGlobal s g (s.core c).asid user (some c) 8
      takeMessage s c t m (d.map fun d => .ofNat 64 (leNat d))
    else
      let ask : State :=
        let (tag, s) := newTag (s.onCore c fun k => { k with htabRead := some (htabKey (g, user), none) }) (.htab c)
        sendFlit s (.read (nodeOf g) tag (.addr (s.core c).asid user g) 8 none)
      match (s.core c).htabRead with
      | some (key, some e) => if key == htabKey (g, user) then takeMessage s c t m e else ask
      | some (_, none) => s
      | none => ask
  | _, _ => s

/-- The answer to a read of an HTAB entry in another device: its bytes, none where it failed. -/
def htabAnswer (s : State) (c : Nat) (d : Option (List Byte)) : State :=
  s.onCore c fun k => { k with htabRead := k.htabRead.map fun x => (x.1, some (d.map fun d => .ofNat 64 (leNat d))) }

/-- MESSAGE_ARRIVAL (R337). -/
def execMessageArrival (s : State) : Out := .next (match s.packet with | .messageArrival m => messageArrivalStep m s | _ => s)
/-- MESSAGE_RETRY (R337). -/
def execMessageRetry (s : State) : Out := .next (match s.packet with | .messageRetry m _ d => messageRetryStep m d s | _ => s)
/-- TRAP_MESSAGE_AT_COLLECTOR (R386). -/
def execTrapMessageAtCollector (s : State) : Out :=
  .next (match s.packet with | .trapMessageAtCollector m => trapMessageAtCollectorStep m s | _ => s)
/-- HANDLER_START (R338). -/
def execHandlerStart (s : State) : Out := .next (match s.packet with | .handlerStart c => handlerStartStep c s | _ => s)

end Sys2Proof.Machine
end

