-- ==== Sys2Proof/Machine/Commands.lean ====
section
/-! DEFINITION. What commands of the matrix unit, the engines and the links share: the versions they name, their reports
and completion fills (R304, R305, R328, R329, R352), and endpoints (R322), read and written a part at a time. -/

namespace Sys2Proof.Machine

/-! ## Versions that commands name -/

/-- A version a command names: none, a local one of a core, or a global one. -/
inductive VName where
  | no
  | loc (core l : Nat) (v : BitVec 16)
  | glob (r : Ref)
  deriving DecidableEq, Repr

/-- The reference in the form it was given in (R248). -/
def VName.word : VName → Word
  | .no => 0
  | .loc _ l v => .ofNat 64 (l * 2^32 + v.toNat)
  | .glob r => refBits r

/-- A version by kind: 1 local of a core, 2 global. -/
def vname (kind core : Nat) (asid : BitVec 16) (x : Word) : VName :=
  match kind with
  | 0 => .no
  | 1 => .loc core (locTile x) (.ofNat 16 (locVer x))
  | _ => .glob (refOf asid x)

/-- A fill of a version that a command names (R236, R245): the cause it draws. -/
def fillName (s : State) (v : VName) (off : Nat) (d : List Byte) : Option Nat × State :=
  match v with
  | .no => (none, s)
  | .loc c l ver => lvtFill s c l ver off (d.map some)
  | .glob r => fillVer s r off (d.map some)

/-- A version that a failing command names becomes POISONED, if it is FILLING (R305, R329, R352). -/
def poisonName (s : State) (v : VName) : State :=
  match v with
  | .no => s
  | .loc c l ver => if (s.lvt c l).ver == ver && (s.lvt c l).state == .filling then lvtPoison s c l else s
  | .glob r => match findVer s r with
    | some e => if e.state == .filling && !e.proxy then poisonVer s r else s
    | none => s

/-- Why a version cannot be filled: absent, POISONED, or not FILLING (R305, R329). -/
def destCause (s : State) (v : VName) : Option Nat :=
  match v with
  | .no => none
  | .loc c l ver =>
    let e := s.lvt c l
    if e.ver != ver || e.state == .free then some 0xA
    else if e.state == .poisoned then some 0xD
    else if e.state != .filling then some 0xB else none
  | .glob r => match findVer s r with
    | none => some 0xA
    | some e =>
      if e.proxy then some 0xB else if e.state == .poisoned then some 0xD else if e.state != .filling then some 0xB else none

/-- SIZE of a version. -/
def sizeName (s : State) (v : VName) : Nat :=
  match v with
  | .no => 0
  | .loc c l _ => (s.lvt c l).size
  | .glob r => match findVer s r with | some e => e.size | none => 0

/-! ## Commands in their queues: kind 0 engine, 1 matrix unit of a core, 2 port -/

def cmdsOf (s : State) (kind u : Nat) : List Cmd :=
  match kind with
  | 0 => s.engine u
  | 1 => (s.core u).mat.queue
  | _ => (s.port u).cmds

def onCmds (s : State) (kind u : Nat) (f : List Cmd → List Cmd) : State :=
  match kind with
  | 0 => { s with engines := aput s.engines u (f (s.engine u)) }
  | 1 => s.onCore u fun k => { k with mat := { k.mat with queue := f k.mat.queue } }
  | _ => s.onPort u fun p => { p with cmds := f p.cmds }

def findCmd (s : State) (kind u id : Nat) : Option Cmd := (cmdsOf s kind u).find? fun c => c.id == id
def onCmd (s : State) (kind u id : Nat) (f : Cmd → Cmd) : State :=
  onCmds s kind u fun l => l.map fun c => if c.id == id then f c else c

def cmdFn (c : Cmd) : Nat := wf c.w0 13 5
def cmdLsid (c : Cmd) : Nat := lsidOf c.w0

/-- A command leaves its queue: its strand has one outstanding less, its launch one command less (R302, R319, R374). -/
def leaveCmd (s : State) (kind u : Nat) (c : Cmd) : State :=
  let s := onCmds s kind u fun l => l.filter fun x => x.id != c.id
  let s := onIssuer s c.src.core c.src.strand c.launch fun d =>
    if kind == 1 then { d with matOut := d.matOut - 1 } else { d with engOut := d.engOut - 1 }
  cmdEnded s c.launch

/-- A deferred report of a command (R253, R305, R329). -/
def reportCmd (s : State) (c : Cmd) (cause : Nat) (tval : Word) : State :=
  report s c.src.core c.src.strand c.launch (reportRec cause tval c.blk (cmdLsid c))

/-- A command will fail with this cause; it stops where it stands. -/
def failCmd (s : State) (kind u id cause : Nat) (tval : Word) : State :=
  match findCmd s kind u id with
  | none => s
  | some c =>
    if c.failed.isSome then s
    else
      (onCmd s kind u id fun c => { c with failed := some (cause, tval) }).emit
        (match kind with
         | 0 => .engineCommandFail u id cause tval
         | 1 => .matrixCommandFail u id cause tval
         | _ => .linkCommandFail u id cause tval)

/-- The completion fill of C, and the report and count of a cause that it draws (R304, R328, R406). -/
def fillC (s : State) (c : Cmd) (v : VName) : State :=
  let w := s.stamp.toNat + 2^40 * cmdFn c + 2^45 * cmdLsid c
  match fillName s v 0 (leBytes w 8) with
  | (none, s) => s
  | (some k, s) => (reportCmd s c k v.word).count 3

/-- The command that an entry of the store buffer carries (R302, R319). -/
def newCmd (e : SbEnt) (id : Nat) (w0 w1 : Word32) (a b : Token) : Cmd where
  id := id
  src := e.src
  blk := e.blk
  asid := e.asid
  user := e.user
  w0 := w0
  w1 := w1
  a := a
  b := b
  base := e.base
  limit := e.limit
  launch := e.launch
  run := false
  parked := false
  got := []
  parts := 0
  wrote := []
  unacked := 0
  tag := 0
  failed := none
  cfg := 0
  at_ := 0
  nf := false
  rout := false
  luta := 0
  lutb := 0
  buf := []
  fetched := false
  rbuf := []
  rfetched := false

/-- The word of the firing instruction. -/
def State.curWord (s : State) : Word32 :=
  match s.curBlock with
  | none => 0
  | some b => match b.slots[s.cur.2.2]? with | some sl => sl.word | none => 0

/-- A command of the firing in progress is held until commit (R302, R323). -/
def holdCmd (s : State) (lsid : BitVec 5) (arg : BitVec 32) (a b : Token) : State := holdHere s lsid (.cmd s.curWord arg a b)

/-- local_check of a raw or window range (R176) with bounds given. -/
def rangeOk (k : Core) (user : Bool) (base limit : Nat) (a : Word) (n : Nat) (wr : Bool) : Bool :=
  if bits a 17 3 == 0 then bits a 20 44 == 0 && rawOk user base limit (bits a 0 17) n
  else localOk k user base limit a n wr

/-! ## Endpoints (R322) -/

/-- A reference of a command: R248 with VER ≠ 0. -/
def cmdRefOk (loc : Bool) (x : Word) : Bool := refOk loc x && (if loc then locVer x != 0 else true)

structure Endpoint where
  kind : Nat
  a : Word
  core : Nat
  off : Nat
  ck : Nat
  lane2 : Word
  c : Word
  deriving DecidableEq, Repr

def endpoint (t : Token) : Endpoint :=
  let l1 := v64 t 1
  { kind := bits l1 0 2, a := v64 t 0, core := bits l1 2 13, off := bits l1 16 28, ck := bits l1 44 2
    lane2 := v64 t 2, c := v64 t 3 }

/-- The tile an endpoint names. -/
def Endpoint.tile (e : Endpoint) (asid : BitVec 16) : VName :=
  if e.kind < 2 then .no else vname (if e.kind == 3 then 1 else 2) e.core asid e.a
/-- Its completion version (R322). -/
def Endpoint.comp (e : Endpoint) (c : Cmd) : VName := vname e.ck c.src.core c.asid e.c

/-- Lane 1 of an endpoint obeys R322; CK is illegal in a source that may not use it. -/
def endLane1 (t : Token) (dest mayC : Bool) : Bool :=
  let l1 := v64 t 1
  let e := endpoint t
  let loft := e.kind == 1 || e.kind == 3
  !l1.getLsbD 15 && bits l1 46 18 == 0 && e.ck != 3 && (dest || mayC || e.ck == 0) &&
    (if loft then e.core < 8192 else e.core == 0) && (2 ≤ e.kind || e.off == 0) &&
    (!dest || 2 ≤ e.kind || e.ck != 0)

/-- Where byte `o` of an endpoint's data lies, for cutting at 64-byte boundaries. -/
def Endpoint.pos (e : Endpoint) (o : Nat) : Nat := if e.kind < 2 then e.a.toNat % 64 + o else e.off + o

/-- What a read or write of a part answers: bytes, a cause, or that it left over a link. -/
inductive EndAns where
  | ok (d : List Byte)
  | bad (cause : Nat) (tval : Word)
  | away
  deriving DecidableEq, Repr

/-- TVAL of R329 for a global part, and for a Loft part of a core. -/
def partTval (g : Word) (code : Nat) : EndAns := .bad 0x11 (.ofNat 64 (g.toNat / 64 * 64 + code))
def loftTval (core a code : Nat) : EndAns := .bad 0x11 (.ofNat 64 (core * 2^51 + 2^50 + a % 2^20 / 64 * 64 + code))

/-- Code of R329 for a cause of a translation. -/
def xlateCode (cause : Nat) : Nat := match cause with | 7 => 1 | 8 => 2 | _ => 3

/-- Protection of a Loft range of core `core` for a command (R323, R329). -/
def otherOk (s : State) (c : Cmd) (core : Nat) (a : Word) (n : Nat) (wr : Bool) : Bool :=
  let k := s.core core
  if core == c.src.core then rangeOk k c.user c.base c.limit a n wr
  else k.asid == c.asid && rangeOk k c.user k.protbase.toNat k.protlimit.toNat a n wr

/-- Protection of the Loft storage of a local tile for a command (R329). -/
def tileOk (s : State) (c : Cmd) (core a n : Nat) : Bool :=
  let k := s.core core
  core == c.src.core || (k.asid == c.asid && rawOk c.user k.protbase.toNat k.protlimit.toNat a n)

/-- A read of `n` bytes from byte `o` of an endpoint on, within one line (R324, R329). A local version whose bytes are in error
becomes POISONED (R189). -/
def readEnd (s : State) (c : Cmd) (e : Endpoint) (o n : Nat) (use : TagUse) : EndAns × State :=
  match e.kind with
  | 0 =>
    let g := e.a + .ofNat 64 o
    if isRemote (s.norm g) then
      if c.fetched then (.ok ((c.buf.drop o).take n), s)
      else if (s.portTo (nodeOf g)).isNone then (partTval g 2, s)
      else
        let (tag, s) := newTag s use
        (.away, sendFlit s (.read (nodeOf g) tag (.addr c.asid c.user g) n none))
    else if !fieldsOk g then (partTval g 2, s)
    else match xlate s g c.asid c.user false false none with
      | (.error k, s) => (partTval g (xlateCode k), s)
      | (.ok (leaf, pa), s) =>
        (match memOp s leaf pa (.read 0 n false) with
         | (.data d, s) => (.ok d, s)
         | (_, s) => (partTval g 3, s))
  | 1 =>
    let a := e.a + .ofNat 64 o
    let k := s.core e.core
    if !otherOk s c e.core a n false then (loftTval e.core a.toNat 2, s)
    else if loftBad k ((localBytes k a n false).getD []) then (loftTval e.core a.toNat 3, s)
    else (.ok (localRead k a n), s)
  | 2 =>
    match findVer s (refOf c.asid e.a) with
    | none => (.bad 0xA e.a, s)
    | some v =>
      if ansOf v != .readable then (.bad (ansCause (ansOf v)) e.a, s)
      else if v.size < e.off + o + n then (.bad 0xB e.a, s)
      else if (ownerOf s v).proxy then (.ok ((c.buf.drop (e.off + o)).take n), s)
      else (.ok (verBytes s v (e.off + o) n), s)
  | _ =>
    let v := s.lvt e.core (locTile e.a)
    match lvtLook s e.core (locTile e.a) (.ofNat 16 (locVer e.a)) with
    | some .readable =>
      let a := (lvtOwner s e.core v).addr * 64 + e.off + o
      if v.size < e.off + o + n then (.bad 0xB e.a, s)
      else if !tileOk s c e.core a n then (loftTval e.core a 2, s)
      else if lvtBad s e.core v (e.off + o) n then (loftTval e.core a 3, lvtPoison s e.core (locTile e.a))
      else (.ok (lvtBytes s e.core v (e.off + o) n), s)
    | some .poisoned => (.bad 0xD e.a, s)
    | some .absent => (.bad 0xA e.a, s)
    | none => (.bad 0xB e.a, s)

/-- A write of bytes from byte `o` of an endpoint on, within one line (R324, R329). -/
def writeEnd (s : State) (c : Cmd) (e : Endpoint) (o : Nat) (d : List Byte) (use : TagUse) : EndAns × State :=
  match e.kind with
  | 0 =>
    let g := e.a + .ofNat 64 o
    if isRemote (s.norm g) then
      if (s.portTo (nodeOf g)).isNone then (partTval g 2, s)
      else
      let (tag, s) := newTag s use
      (.away, sendFlit s (.write (nodeOf g) tag (.addr c.asid g) c.user (d.map some) true))
    else if !fieldsOk g then (partTval g 2, s)
    else match xlate s g c.asid c.user true false none with
      | (.error k, s) => (partTval g (xlateCode k), s)
      | (.ok (leaf, pa), s) => (.ok [], (memOp s leaf pa (.write (d.map some))).2)
  | 1 =>
    let a := e.a + .ofNat 64 o
    if otherOk s c e.core a d.length true then (.ok [], loftWrite s e.core a.toNat (d.map some))
    else (loftTval e.core a.toNat 2, s)
  | 2 =>
    match fillName s (.glob (refOf c.asid e.a)) (e.off + o) d with
    | (none, s) => (.ok [], s)
    | (some k, s) => (.bad k e.a, s)
  | _ =>
    let v := s.lvt e.core (locTile e.a)
    let a := v.addr * 64 + e.off + o
    let mine := v.ver == .ofNat 16 (locVer e.a) && v.state == .filling
    if mine && e.off + o + d.length ≤ v.size && !tileOk s c e.core a d.length then (loftTval e.core a 2, s)
    else match fillName s (.loc e.core (locTile e.a) (.ofNat 16 (locVer e.a))) (e.off + o) d with
      | (none, s) => (.ok [], s)
      | (some k, s) => (.bad k e.a, s)

end Sys2Proof.Machine
end

