-- ==== Sys2Proof/Machine/Engine.lean ====
section
/-! DEFINITION. The copy engines (R319-R330): the firing checks of their forms, and their commands, which read and write their
parts in no order. -/

namespace Sys2Proof.Machine

/-! ## Firing (R321-R323) -/

/-- The index list's descriptor (R326). -/
def idxOk (x : Word) : Bool := bits x 17 3 == 0 && bits x 48 16 == 0
def idxAt (x : Word) : Nat := bits x 0 17
def idxStride (x : Word) : Nat := bits x 20 28

/-- The decode parameters of XCOPY.exp (R325). -/
def expOk (x : Word) : Bool := bits x 12 20 == 0 && bits x 60 4 == 0 && bits x 5 2 != 3
def expWidth (x : Word) : Nat := match bits x 5 2 with | 0 => 2 | 1 => 4 | _ => 1

/-- What a form of major 0x76 asks: FN, EXP, element size, and LEN or N. -/
structure EngForm where
  fn : Nat
  exp : Bool
  es : Nat
  n : Nat
  deriving DecidableEq, Repr

def engForm (c : Cmd) : EngForm :=
  let fn := cmdFn c
  { fn := fn, exp := fn == 0 && c.w0.getLsbD 8
    es := if fn == 1 || fn == 2 then sizeBytes (.ofNat 3 (wf c.w0 8 3)) else 1, n := c.w1.toNat % 2^28 }

/-- Bytes that the form takes of its source, or elements of an XCOPY.exp, and bytes it puts to its destination; none where an index list names them, so that no range
stands when the form fires (R323, R326). -/
def srcExtent (f : EngForm) : Option Nat := match f.fn with | 0 => some f.n | 2 => some (f.n * f.es) | _ => none
def dstExtent (f : EngForm) (src : Endpoint) : Option Nat :=
  match f.fn with
  | 0 => some (if f.exp then f.n * expWidth src.lane2 else f.n)
  | 1 => some (f.n * f.es)
  | 3 => some f.n
  | _ => none

/-- The lane an operand's layout fails in (R323, step 1). -/
def badLane (f : EngForm) (t : Token) (dest : Bool) : Option Nat :=
  let e := endpoint t
  let exp1 := !f.exp || (if dest then e.kind == 1 else e.kind == 2 && e.off % 32 == 0)
  let idx := (f.fn == 1 && !dest) || (f.fn == 2 && dest)
  let l2 := if idx then idxOk e.lane2 else if f.exp && !dest then expOk e.lane2 else e.lane2 == 0
  if !endLane1 t dest false || !exp1 then some 1 else if !l2 then some 2 else none

/-- References that an endpoint names, each with whether it is local. -/
def endRefs (e : Endpoint) (mayC : Bool) : List (Bool × Word) :=
  (if 2 ≤ e.kind then [(e.kind == 3, e.a)] else []) ++ (if mayC && e.ck != 0 then [(e.ck == 1, e.c)] else [])

/-- The address that a Loft range of the issuing core fails its check with, be it of no bytes (R176, R323, step 5). -/
def badLoft (s : State) (e : Endpoint) (n : Nat) (wr : Bool) : Option Word :=
  let k := s.core s.cur.1
  if e.kind == 1 && e.core == s.cur.1 && !rangeOk k s.user k.protbase.toNat k.protlimit.toNat e.a n wr then some e.a else none

/-- The index list lies in the issuing core's Loft. -/
def badIdx (s : State) (x : Word) (n : Nat) : Option Word :=
  let k := s.core s.cur.1
  if rawOk s.user k.protbase.toNat k.protlimit.toNat (idxAt x) (4 * n) then none else some (.ofNat 64 (idxAt x))

/-- Detections of R323 in order: cause and TVAL. `src` is none for XFILL. -/
def engChecks (s : State) (f : EngForm) (src : Option Token) (dst : Token) : Option (Nat × Word) :=
  let e := src.map endpoint
  let d := endpoint dst
  let ends : List (Endpoint × Option Nat × Bool) :=
    (match e with | some e => [(e, srcExtent f, false)] | none => []) ++ [(d, dstExtent f (e.getD d), true)]
  let lanes := ((src.bind fun t => badLane f t false).map fun l => l).or ((badLane f dst true).map (8 + ·))
  let refs := ends.flatMap fun (x, _, wr) => endRefs x wr
  let idx := if f.fn == 1 then e.map (·.lane2) else if f.fn == 2 then some d.lane2 else none
  match lanes with
  | some l => some (0x11, .ofNat 64 l)
  | none =>
    if (f.fn == 1 || f.fn == 2) && f.n == 0 then some (0x11, 16)
    else match refs.find? fun (loc, x) => !cmdRefOk loc x with
      | some (_, x) => some (0xB, x)
      | none =>
        match ends.find? fun (x, n, _) => 2 ≤ x.kind && 2^28 < x.off + n.getD 0 with
        | some (x, _, _) => some (0xB, x.a)
        | none =>
          match ends.find? fun (x, _, _) => x.kind == 0 && !fieldsOk x.a with
          | some (x, _, _) => some (8, x.a)
          | none =>
            match idx.filter fun x => idxAt x % 4 != 0 with
            | some x => some (9, .ofNat 64 (idxAt x))
            | none =>
              (((ends.filterMap fun (x, n, wr) => n.bind fun n => badLoft s x n wr).head?).or (idx.bind fun x => badIdx s x f.n)).map
                fun a => (8, a)

/-- An engine form fires (R323). -/
def engFire (f : EngForm) (pr : BitVec 2) (lsid : BitVec 5) (arg : BitVec 32) (s : State) : State :=
  fireAB s pr fun o s =>
    let src := if f.fn == 3 then none else some o.a
    if anyNull o.a 0 (if f.fn == 3 then 8 else 32) || anyNull o.b 0 32 then arriveHere s lsid
    else match engChecks s f src o.b with
      | some (cause, tval) => faultHere s cause tval (some lsid.toNat)
      | none => holdCmd s lsid arg o.a o.b

def xcanStep (pr : BitVec 2) (lsid : BitVec 5) (loc : BitVec 1) (arg : BitVec 32) (s : State) : State :=
  fireA s pr fun o s =>
    let x := v64 o.a 0
    if anyNull o.a 0 8 then arriveHere s lsid
    else if !cmdRefOk (loc == 1) x then faultHere s 0xB x (some lsid.toNat)
    else holdCmd s lsid arg o.a noTok

def engLen (arg : BitVec 32) : Nat := arg.toNat % 2^28

/-- XCOPY (R324). -/
def execXcopy (pr : BitVec 2) (lsid : BitVec 5) (arg : BitVec 32) (s : State) : Out :=
  .next (engFire ⟨0, false, 1, engLen arg⟩ pr lsid arg s)
/-- XCOPY.exp (R325). -/
def execXcopyExp (pr : BitVec 2) (lsid : BitVec 5) (arg : BitVec 32) (s : State) : Out :=
  .next (engFire ⟨0, true, 1, engLen arg⟩ pr lsid arg s)
/-- XGATH (R326). -/
def execXgath (pr : BitVec 2) (lsid : BitVec 5) (es : BitVec 3) (arg : BitVec 32) (s : State) : Out :=
  .next (engFire ⟨1, false, sizeBytes es, engLen arg⟩ pr lsid arg s)
/-- XSCAT (R326). -/
def execXscat (pr : BitVec 2) (lsid : BitVec 5) (es : BitVec 3) (arg : BitVec 32) (s : State) : Out :=
  .next (engFire ⟨2, false, sizeBytes es, engLen arg⟩ pr lsid arg s)
/-- XFILL (R327). -/
def execXfill (pr : BitVec 2) (lsid : BitVec 5) (arg : BitVec 32) (s : State) : Out :=
  .next (engFire ⟨3, false, 1, engLen arg⟩ pr lsid arg s)
/-- XCAN (R330). -/
def execXcan (pr : BitVec 2) (lsid : BitVec 5) (loc : BitVec 1) (arg : BitVec 32) (s : State) : Out :=
  .next (xcanStep pr lsid loc arg s)

/-! ## Queue and running set (R319, R320) -/

/-- The engine of a core (R319). -/
def engineOf (core : Nat) : Nat := coreDie core * 8 + coreRow core / 2

/-- The source of an engine command, where it has one. -/
def engSrc (c : Cmd) : Option Endpoint := if cmdFn c == 3 then none else some (endpoint c.a)
def engDst (c : Cmd) : Endpoint := endpoint c.b

/-- The destination version of a command: its destination tile, or else C (R322). -/
def engVersion (c : Cmd) : VName :=
  match (engDst c).tile c.asid with
  | .no => (engDst c).comp c
  | v => v

/-- A command of an engine waits in its queue, or is in the running set. -/
def inQueue (c : Cmd) : Bool := !c.run && !c.parked && c.failed.isNone
/-- The command an engine starts next: the oldest queued one (R320). -/
def nextStart (s : State) (e : Nat) : Option Cmd := (s.engine e).find? inQueue

/-- ENGINE_COMMAND_ARRIVAL (R320). -/
def engineCommandArrivalStep (e : Nat) (c : Cmd) (s : State) : State := onCmds s 0 e fun l => l ++ [c]

/-! ## Parts -/

/-- The number of units of at most 64 bytes that a command moves; each falls into at most three pieces within lines. -/
def engUnits (c : Cmd) : Nat :=
  let f := engForm c
  match f.fn with
  | 0 => if f.exp then (f.n * expWidth (endpoint c.a).lane2 + 63) / 64 else (f.n + 63) / 64
  | 3 => (f.n + 63) / 64
  | _ => f.n
def engParts (c : Cmd) : Nat := 3 * engUnits c

/-- Index `j` of a command's list (R326). -/
def engIdx (c : Cmd) (j : Nat) : Nat := leNat ((c.rbuf.drop (4 * j)).take 4)

/-- A unit: where its source and destination bytes lie, and how many they are (R324-R327). -/
def engUnit (c : Cmd) (n : Nat) : Nat × Nat × Nat :=
  let f := engForm c
  match f.fn with
  | 1 => (engIdx c n * idxStride (endpoint c.a).lane2, n * f.es, f.es)
  | 2 => (n * f.es, engIdx c n * idxStride (endpoint c.b).lane2, f.es)
  | _ => (64 * n, 64 * n, min 64 ((if f.exp then f.n * expWidth (endpoint c.a).lane2 else f.n) - 64 * n))

/-- Piece `n % 3` of unit `n / 3`: source offset, destination offset, length; cut where either side meets a multiple of
64. -/
def engPiece (c : Cmd) (n : Nat) : Nat × Nat × Nat :=
  let (so, d, z) := engUnit c (n / 3)
  let cut (p : Nat) : Nat := min z (64 - p % 64)
  let x := match engSrc c with | some e => if (engForm c).exp then z else cut (e.pos so) | none => z
  let y := cut ((engDst c).pos d)
  let lo := match n % 3 with | 0 => 0 | 1 => min x y | _ => max x y
  let hi := match n % 3 with | 0 => min x y | 1 => max x y | _ => z
  (so + lo, d + lo, hi - lo)

/-! ## XCOPY.exp (R325) -/

/-- Width in bits of an element of a decodable FMT. -/
def fmtBits (fmt : Nat) : Nat := if fmt == 3 || fmt == 6 then 4 else 8
/-- SIZE_e (R235). -/
def sizeE (nel fmt : Nat) : Nat := (nel * fmtBits fmt + 1023) / 1024 * 128

/-- Code byte and scale bytes of element `e` (R325). -/
def expScale (p : Word) (fmt e : Nat) : Nat × Nat :=
  let base := sizeE (bits p 32 28) fmt
  match fmt with
  | 6 => (base + 4 * (if p.getLsbD 4 then e % 2^(bits p 0 4) else e / 2^(bits p 0 4)), 4)
  | 7 => (0, 0)
  | _ => (base + e / 32, 1)

/-- The format rules of R325 for a source of FMT `fmt` and SIZE `size`. -/
def expFits (p : Word) (fmt size e0 n : Nat) : Bool :=
  3 ≤ fmt && fmt ≤ 7 && (fmt != 7 || bits p 8 3 != 0) && (bits p 5 2 != 2 || fmt == 6) && e0 + n ≤ bits p 32 28 &&
  (List.range n).all fun j =>
    let e := e0 + j
    let (a, z) := expScale p fmt e
    e * fmtBits fmt / 8 < size && a + z ≤ size

/-- The bytes of a decoded element (R325, R179). -/
def expElem (k : Core) (p : Word) (fmt : Nat) (byte : Nat → Nat) (e : Nat) : List Byte :=
  let x := byte (e * fmtBits fmt / 8)
  let code := if fmtBits fmt == 4 then x / 16^(e % 2) % 16 else x
  let (a, z) := expScale p fmt e
  let scale := leNat ((List.range z).map fun j => .ofNat 8 (byte (a + j)))
  if bits p 5 2 == 2 then leBytes (wrapN (lutEnt k code) 8) 1
  else
    let v : Ex := match fmt with
      | 3 => mxVal e2m1 scale code
      | 4 => mxVal e4m3 scale code
      | 5 => mxVal e5m2 scale code
      | 6 => exMul (exInt (lutEnt k code)) (decodeF f32 scale)
      | _ => decodeF (b8Desc (bits p 7 5)) code
    if bits p 5 2 == 0 then leBytes (rndCode bf16 0 v) 2 else leBytes (rndCode f32 0 v) 4

/-- Output bytes `[o, o+n)` of an XCOPY.exp. -/
def expRead (s : State) (c : Cmd) (o n : Nat) : EndAns × State :=
  let e := endpoint c.a
  match findVer s (refOf c.asid e.a) with
  | none => (.bad 0xA e.a, s)
  | some v =>
    if ansOf v != .readable then (.bad (ansCause (ansOf v)) e.a, s)
    else
      let w := expWidth e.lane2
      let ow := ownerOf s v
      let byte (j : Nat) : Nat := (if ow.proxy then c.buf.getD j 0 else memRead ow.bytes j).toNat
      let k := { s.core c.src.core with lut4a := c.luta, lut4b := c.lutb }
      let elems := (List.range ((o + n + w - 1) / w - o / w)).flatMap fun j =>
        expElem k e.lane2 v.fmt.toNat byte (e.off + o / w + j)
      (.ok ((elems.drop (o % w)).take n), s)

/-! ## Start (R320, R326) -/

/-- The index list of XGATH and XSCAT, or the address of its first byte that holds an uncorrectable error. -/
def readIdx (s : State) (c : Cmd) : Except Nat (List Byte) :=
  let k := s.core c.src.core
  let f := engForm c
  let a := idxAt (if f.fn == 1 then (endpoint c.a).lane2 else (endpoint c.b).lane2)
  if f.fn != 1 && f.fn != 2 then .ok []
  else match k.loftPoison.filter fun x => a ≤ x && x < a + 4 * f.n with
    | [] => .ok (memBytes k.loft a (4 * f.n))
    | x :: xs => .error (xs.foldl min x)

/-- The source version's entry, where the source is a tile of the version tables. -/
def engSrcVer (s : State) (c : Cmd) : Option Ver :=
  (engSrc c).bind fun e => if e.kind == 2 then findVer s (refOf c.asid e.a) else none

/-- The command reads a proxy, whose bytes come from another device (R242). -/
def readsProxy (s : State) (c : Cmd) : Bool := match engSrcVer s c with | some v => (ownerOf s v).proxy | none => false

/-- ENGINE_COMMAND_START (R320, R325, R326). A tile source is asked for first: the command leaves the running set until
the answer; `at_` is 1 when it was readable. A command that moves nothing asks for nothing (R324). -/
def engineCommandStartStep (e : Nat) (s : State) : State :=
  match nextStart s e with
  | none => s
  | some c =>
    let src := engSrc c
    let k := s.core c.src.core
    let tile := match src with | some x => 2 ≤ x.kind | none => false
    if engUnits c == 0 then onCmd s 0 e c.id fun c => { c with run := true }
    else if tile && c.at_ == 0 then
      -- LUT4A and LUT4B are those at this start (R325)
      let s := onCmd s 0 e c.id fun c => { c with parked := true, luta := k.lut4a, lutb := k.lut4b }
      match src with
      | some x => if x.kind == 2 then watchVer s (refOf c.asid x.a) (.engine e c.id) 64 else s
      | none => s
    else
      let p := match src with | some x => x.lane2 | none => 0
      let fits := !(engForm c).exp || match engSrcVer s c with
        | some v => expFits p v.fmt.toNat v.size (endpoint c.a).off (engForm c).n
        | none => true
      match readIdx s c with
      | .error a => failCmd s 0 e c.id 0x11 (.ofNat 64 (c.src.core * 2^51 + 2^50 + a / 64 * 64 + 3))
      | .ok idx =>
        if !fits then failCmd s 0 e c.id 0xB (endpoint c.a).a
        else
          let s := onCmd s 0 e c.id fun c => { c with run := true, rbuf := idx }
          match engSrcVer s c with
          | some v =>
            if (ownerOf s v).proxy && !c.fetched then readSource s (ownerOf s v) 0 v.size (.fetch 0 e c.id false) else s
          | none => s

/-- ENGINE_SOURCE_ANSWER (R326). -/
def engineSourceAnswerStep (e id : Nat) (a : Answer) (s : State) : State :=
  match findCmd s 0 e id with
  | none => s
  | some c =>
    if !c.parked then s
    else if a == .readable then onCmd s 0 e id fun c => { c with parked := false, at_ := 1 }
    else failCmd s 0 e id (ansCause a) (endpoint c.a).a

/-! ## Moving -/

/-- The bytes of piece `n` are read (R324-R327). -/
def engRead (s : State) (e : Nat) (c : Cmd) (n : Nat) : State :=
  let (so, d, z) := engPiece c n
  let put (s : State) (x : List Byte) : State := onCmd s 0 e c.id fun c => { c with got := aput c.got n x }
  match engSrc c with
  | none =>
    let pat := v64 c.a 0
    put s ((List.range z).map fun j => .ofNat 8 (bits pat (8 * ((d + j) % 8)) 8))
  | some x =>
    if z = 0 then put s []
    else match (if (engForm c).exp then expRead s c so z else readEnd s c x so z (.engine e c.id n)) with
      | (.ok b, s) => put s b
      | (.bad k v, s) => failCmd s 0 e c.id k v
      | (.away, s) => onCmd (put s []) 0 e c.id fun c => { c with unacked := c.unacked + 1 }

/-- A piece may be written: those of the lower elements of an XSCAT that write one of its bytes have been (R326). In all else a
command's writes have no order (R202). -/
def engMayWrite (c : Cmd) (n : Nat) : Bool :=
  let (_, d, z) := engPiece c n
  (engForm c).fn != 2 || (List.range n).all fun m =>
    let (_, d', z') := engPiece c m
    c.wrote.contains m || !(d < d' + z' && d' < d + z)

/-- Piece `n` is written. What a POISONED destination discards counts as written (R236). -/
def engWrite (s : State) (e : Nat) (c : Cmd) (n : Nat) (b : List Byte) : State :=
  let (_, d, z) := engPiece c n
  let next (s : State) : State := onCmd s 0 e c.id fun c => { c with parts := c.parts + 1, wrote := n :: c.wrote }
  if z = 0 then next s
  else match writeEnd s c (engDst c) d b (.engine e c.id n) with
    | (.ok _, s) => next s
    | (.bad k v, s) => failCmd s 0 e c.id k v
    | (.away, s) => onCmd (next s) 0 e c.id fun c => { c with unacked := c.unacked + 1 }

/-- The bytes of piece `n` have been read and not yet written. -/
def engHas (c : Cmd) (n : Nat) : Option (List Byte) :=
  match c.got.find? fun x => x.1 == n with
  | some (_, b) => if b.length == (engPiece c n).2.2 && !c.wrote.contains n then some b else none
  | none => none

/-- A running engine command performs its part `n`, in no order (R202): it reads the piece, or writes it. -/
def engPart (s : State) (e id n : Nat) : State :=
  match findCmd s 0 e id with
  | none => s
  | some c =>
    match engHas c n with
    | some b => if engMayWrite c n then engWrite s e c n b else s
    | none => if c.got.any fun x => x.1 == n then s else engRead s e c n

/-! ## Completion, failure, cancellation -/

/-- The destination version and C become POISONED, if not yet sealed (R329, R330). -/
def engPoison (s : State) (c : Cmd) : State := poisonName (poisonName s ((engDst c).tile c.asid)) ((engDst c).comp c)

/-- ENGINE_COMMAND_COMPLETE (R328). -/
def engineCommandCompleteStep (e id : Nat) (s : State) : State :=
  match findCmd s 0 e id with
  | none => s
  | some c => fillC (leaveCmd s 0 e c) c ((engDst c).comp c)

/-- ENGINE_COMMAND_FAIL (R329). -/
def engineCommandFailStep (e id cause : Nat) (tval : Word) (s : State) : State :=
  match findCmd s 0 e id with
  | none => s
  | some c => leaveCmd (reportCmd (engPoison s c) c cause tval) 0 e c

/-- A command's parked read is cancelled (R239). -/
def cancelEngine (s : State) (e : Nat) (c : Cmd) : State :=
  match engSrc c with
  | none => s
  | some x =>
    if !c.parked || x.kind != 2 then s else dropWatch s (refOf c.asid x.a) (· == .engine e c.id)

/-- XCAN_AT_ENGINE (R330). -/
def xcanAtEngineStep (core : Nat) (asid : BitVec 16) (loc : Bool) (ref : Word) (s : State) : State :=
  let name := vname (if loc then 1 else 2) core asid ref
  (List.range 8).foldl (fun s k =>
    let e := coreDie core * 8 + k
    ((s.engine e).filter fun c => c.src.core == core && c.asid == asid && engVersion c == name).foldl
      (fun s c => leaveCmd (engPoison (cancelEngine s e c) c) 0 e c) s) s

/-- ENGINE_COMMAND_ARRIVAL (R320). -/
def execEngineCommandArrival (s : State) : Out :=
  .next (match s.packet with | .engineCommandArrival e c => engineCommandArrivalStep e c s | _ => s)
/-- ENGINE_COMMAND_START (R320). -/
def execEngineCommandStart (s : State) : Out :=
  .next (match s.packet with | .engineCommandStart e => engineCommandStartStep e s | _ => s)
/-- ENGINE_SOURCE_ANSWER (R326). -/
def execEngineSourceAnswer (s : State) : Out :=
  .next (match s.packet with | .engineSourceAnswer e id a => engineSourceAnswerStep e id a s | _ => s)
/-- ENGINE_COMMAND_COMPLETE (R328). -/
def execEngineCommandComplete (s : State) : Out :=
  .next (match s.packet with | .engineCommandComplete e id => engineCommandCompleteStep e id s | _ => s)
/-- ENGINE_COMMAND_FAIL (R329). -/
def execEngineCommandFail (s : State) : Out :=
  .next (match s.packet with | .engineCommandFail e id k v => engineCommandFailStep e id k v s | _ => s)
/-- XCAN_AT_ENGINE (R330). -/
def execXcanAtEngine (s : State) : Out :=
  .next (match s.packet with | .xcanAtEngine c a l r => xcanAtEngineStep c a l r s | _ => s)

end Sys2Proof.Machine
end

