-- ==== Sys2Proof/Machine/Matrix.lean ====
section
/-! DEFINITION. The matrix unit (chapter 15): the firing of its forms, the order and the parts of its commands, and their
arithmetic. -/

namespace Sys2Proof.Machine

/-! ## Formats (R299, R300) -/

/-- Class of a format: 0 4-bit, 1 8-bit, 2 16-bit (R299). -/
def matClass (f : Nat) : Nat := match f with | 0 => 0 | 4 => 2 | _ => 1
/-- Row length in bytes (R299). -/
def rowLen (f : Nat) : Nat := match f with | 0 => 34 | 1 => 66 | 2 => 66 | 4 => 128 | _ => 64

def aFmt (cfg : Nat) : Nat := cfg % 8
def bFmt (cfg : Nat) : Nat := cfg / 8 % 8
def b8Of (cfg lo : Nat) : Nat := cfg / 2^lo % 32

/-- A configuration is legal (R299). -/
def matCfgOk (cfg : Nat) : Bool :=
  let a := aFmt cfg
  let b := bFmt cfg
  a < 6 && b < 6 && matClass a == matClass b && (a == 3) == (b == 3) &&
    (a != 5 || b8Of cfg 6 / 2 % 8 != 0) && (b != 5 || b8Of cfg 11 / 2 % 8 != 0)

/-- The word of an element: code, scale, format and B8 descriptor (R396). -/
def elemWord (f b8 code scale : Nat) : BitVec 32 := .ofNat 32 (code % 2^16 + 2^16 * (scale % 2^8) + 2^24 * (f % 8) + 2^27 * b8)

/-- The value of an element (R300). -/
def elemVal (w : BitVec 32) : Ex :=
  let x : Word := w.zeroExtend 64
  let code := bits x 0 16
  let scale := bits x 16 8
  match bits x 24 3 with
  | 0 => mxVal e2m1 scale (code % 2^4)
  | 1 => mxVal e4m3 scale (code % 2^8)
  | 2 => mxVal e5m2 scale (code % 2^8)
  | 3 => exInt (sextI (code % 2^8) 8)
  | 4 => decodeF bf16 code
  | 5 => decodeF (b8Desc (bits x 27 5)) (code % 2^8)
  | _ => decodeF f32 (Config.planeValue w.toNat).toNat

/-- The element that no entry of a plane lists: the BF16 +0. -/
def plusZeroElem : BitVec 32 := elemWord 4 0 0 0
/-- The canonical NaN of BF16 (R133). -/
def nanElem : BitVec 32 := elemWord 4 0 bf16.nan 0

/-- The 64 elements of a row (R299). -/
def rowElems (f b8 : Nat) (row : List Byte) : List (BitVec 32) :=
  let byte (i : Nat) : Nat := (row.getD i 0).toNat
  (List.range 64).map fun e =>
    match f with
    | 0 => elemWord f b8 (byte (e / 2) / 16^(e % 2) % 16) (byte (32 + e / 32))
    | 1 | 2 => elemWord f b8 (byte e) (byte (64 + e / 32))
    | 4 => elemWord f b8 (byte (2 * e) + 256 * byte (2 * e + 1)) 0
    | _ => elemWord f b8 (byte e) 0

/-- The 64 values of a row (R300). -/
def rowVals (f b8 : Nat) (row : List Byte) : List Ex := (rowElems f b8 row).map elemVal

/-! ## Descriptors (R307) -/

structure MatDesc where
  dk : Nat
  ck : Nat
  stride : Nat
  rows : Nat
  first : Nat
  off : Nat
  a : Word
  c : Word
  deriving DecidableEq, Repr

def matDesc (t : Token) : MatDesc :=
  let l1 := v64 t 1
  { dk := bits l1 0 2, ck := bits l1 2 2, stride := 16 * bits l1 4 12, rows := bits l1 16 8 + 1
    first := bits l1 24 7, off := bits (v64 t 2) 0 28, a := v64 t 0, c := v64 t 3 }

/-- Width in bytes of a drained element (R314). -/
def mdrnWidth (ofmt : Nat) : Nat := match ofmt with | 0 => 4 | 1 => 2 | 2 => 2 | _ => 1

/-- The checks of R308 in their order; `fn` 1 MLDS, 3 MSTR, 5 MDRN. -/
def matFire (fn ow : Nat) (pr : BitVec 2) (lsid : BitVec 5) (arg : BitVec 32) (s : State) : State :=
  fireA s pr fun o s =>
    if anyNull o.a 0 32 then arriveHere s lsid else
    let d := matDesc o.a
    let l1 := v64 o.a 1
    let l2 := v64 o.a 2
    let l := some lsid.toNat
    let bad2 : Bool := bits l2 28 36 != 0 || (d.dk == 0 && l2 != 0)
    let own : Bool := match fn with
      | 1 => d.rows == 64 && d.first == 0
      | 3 => d.dk != 2
      | _ => decide (d.rows ≤ 128) && decide (d.first + d.rows ≤ 128) && decide (64 * ow ≤ d.stride)
    let k := s.core s.cur.1
    if bad2 then faultHere s 0x10 l2 l
    else if d.dk == 3 || d.ck == 3 || bits l1 31 33 != 0 || d.stride == 0 || !own then faultHere s 0x10 l1 l
    else if d.dk != 0 && !cmdRefOk (d.dk == 1) d.a then faultHere s 0xB d.a l
    else if d.ck != 0 && !cmdRefOk (d.ck == 1) d.c then faultHere s 0xB d.c l
    else if d.dk != 0 && 2^28 < d.off + d.rows * d.stride then faultHere s 0xB d.a l
    else if d.dk == 0 && d.a.toNat % 16 != 0 then faultHere s 9 d.a l
    else if d.dk == 0 && !rangeOk k s.user k.protbase.toNat k.protlimit.toNat d.a (d.rows * d.stride) (fn == 5) then
      faultHere s 8 d.a l
    else holdCmd s lsid arg o.a noTok

def mcfgStep (pr : BitVec 2) (lsid : BitVec 5) (arg : BitVec 32) (s : State) : State :=
  fire0 s pr fun _ s =>
    if matCfgOk arg.toNat then holdCmd s lsid arg noTok noTok
    else faultHere s 0x10 (arg.zeroExtend 64) (some lsid.toNat)
def mldsStep (pr : BitVec 2) (lsid : BitVec 5) (arg : BitVec 32) (s : State) : State := matFire 1 0 pr lsid arg s
def mswapStep (pr : BitVec 2) (lsid : BitVec 5) (arg : BitVec 32) (s : State) : State :=
  fire0 s pr fun _ s => holdCmd s lsid arg noTok noTok
def mstrStep (pr : BitVec 2) (lsid : BitVec 5) (arg : BitVec 32) (s : State) : State := matFire 3 0 pr lsid arg s
def mzeroStep (pr : BitVec 2) (lsid : BitVec 5) (arg : BitVec 32) (s : State) : State :=
  fire0 s pr fun _ s => holdCmd s lsid arg noTok noTok
def mdrnStep (pr : BitVec 2) (lsid : BitVec 5) (ofmt : BitVec 3) (arg : BitVec 32) (s : State) : State :=
  matFire 5 (mdrnWidth ofmt.toNat) pr lsid arg s

/-- MCFG (R309). -/
def execMcfg (pr : BitVec 2) (lsid : BitVec 5) (arg : BitVec 32) (s : State) : Out := .next (mcfgStep pr lsid arg s)
/-- MLDS (R310); its orientation is in its word. -/
def execMlds (pr : BitVec 2) (lsid : BitVec 5) (_tr : BitVec 1) (arg : BitVec 32) (s : State) : Out :=
  .next (mldsStep pr lsid arg s)
/-- MSWAP (R311). -/
def execMswap (pr : BitVec 2) (lsid : BitVec 5) (arg : BitVec 32) (s : State) : Out := .next (mswapStep pr lsid arg s)
/-- MSTR (R312). -/
def execMstr (pr : BitVec 2) (lsid : BitVec 5) (arg : BitVec 32) (s : State) : Out := .next (mstrStep pr lsid arg s)
/-- MZERO (R313); its row count is in its word. -/
def execMzero (pr : BitVec 2) (lsid : BitVec 5) (_rows : BitVec 5) (arg : BitVec 32) (s : State) : Out :=
  .next (mzeroStep pr lsid arg s)
/-- MDRN (R314); INF and CLR are in its word. -/
def execMdrn (pr : BitVec 2) (lsid : BitVec 5) (ofmt : BitVec 3) (_inf _clr : BitVec 1) (arg : BitVec 32) (s : State) : Out :=
  .next (mdrnStep pr lsid ofmt arg s)

/-! ## Commands of the queue (R302) -/

/-- The completion version of a matrix command (R304). -/
def matComp (core : Nat) (c : Cmd) : VName :=
  match cmdFn c with
  | 1 | 3 | 5 => vname (matDesc c.a).ck core c.asid (matDesc c.a).c
  | 2 | 4 => if bits (c.w1.zeroExtend 64) 0 16 == 0 then .no
      else .loc core (bits (c.w1.zeroExtend 64) 16 6) (.ofNat 16 (bits (c.w1.zeroExtend 64) 0 16))
  | _ => .no

/-- The version whose bytes a matrix command reads or fills. -/
def matData (core : Nat) (c : Cmd) : VName :=
  match cmdFn c with
  | 1 | 3 | 5 => vname (matDesc c.a).dk core c.asid (matDesc c.a).a
  | _ => .no

/-- The commands ahead of a command in its queue. -/
def aheadOf (q : List Cmd) (id : Nat) : List Cmd := q.takeWhile fun c => c.id != id

/-- A command enters the queue, with the configuration of the last MCFG ahead of it (R302). -/
def enterMatrix (s : State) (core : Nat) (c : Cmd) : State :=
  s.onCore core fun k =>
    let cfg := match (k.mat.queue.filter fun x => cmdFn x == 0).getLast? with
      | some x => (x.w1.truncate 16 : BitVec 16)
      | none => k.mat.cfg
    { k with mat := { k.mat with queue := k.mat.queue ++ [{ c with cfg := cfg }] } }

/-- A command's completion fill goes to the Loft (R304). -/
def compInLoft (core : Nat) (c : Cmd) : Bool := match matComp core c with | .loc .. => true | _ => false

/-- A fill of version `x` may make version `v` readable: it is `v`, or a lower version of its tile, which the seal of an END
version waits for (R237). -/
def mayUnblock (x v : VName) : Bool :=
  match x, v with
  | .glob r, .glob q => r.asid == q.asid && r.tn == q.tn && r.ver.toNat ≤ q.ver.toNat
  | x, v => x == v

/-- A command ahead may still write what this MLDS reads, its rows or its completion fill, so that it waits for it (R302: every
result equals that of queue order). -/
def mldsHazard (core : Nat) (c x : Cmd) : Bool :=
  if (matDesc c.a).dk < 2 then (cmdFn x == 5 && (matDesc x.a).dk < 2) || compInLoft core x
  else (cmdFn x == 5 && mayUnblock (matData core x) (matData core c)) || mayUnblock (matComp core x) (matData core c)

/-- A command may start, or its fetch may leave (R302). -/
def matMayStart (s : State) (core : Nat) (c : Cmd) : Bool :=
  let ahead := aheadOf (s.core core).mat.queue c.id
  if cmdFn c == 1 then ahead.all fun x => cmdFn x != 1 && cmdFn x != 2 && !mldsHazard core c x else ahead.isEmpty
def matMayFetch (s : State) (core : Nat) (c : Cmd) : Bool :=
  (aheadOf (s.core core).mat.queue c.id).all fun x => !mldsHazard core c x

/-- Row length that a command streams or loads, or the bytes of a drained row. -/
def matRow (c : Cmd) : Nat :=
  match cmdFn c with
  | 1 => rowLen (bFmt c.cfg.toNat)
  | 3 => rowLen (aFmt c.cfg.toNat)
  | _ => 64 * mdrnWidth (wf c.w0 8 3)

/-- Parts of 16 bytes of each row, and parts in all: rows into a tile go whole (R303, R312, R314). -/
def matPartsPerRow (c : Cmd) : Nat := if cmdFn c == 5 && (matDesc c.a).dk != 0 then 1 else (matRow c + 15) / 16
def matParts (c : Cmd) : Nat :=
  match cmdFn c with
  | 1 | 3 | 5 => (matDesc c.a).rows * matPartsPerRow c
  | _ => 0

/-- Bytes from OFF that the rows span. -/
def matSpan (c : Cmd) : Nat := ((matDesc c.a).rows - 1) * (matDesc c.a).stride + matRow c

/-- Why a command cannot start on its data (R305), with its TVAL. -/
def matStartBad (s : State) (core : Nat) (c : Cmd) : Option (Nat × Word) :=
  let d := matDesc c.a
  let name := matData core c
  let long : Bool := decide (sizeName s name < d.off + matSpan c)
  match cmdFn c with
  | 5 =>
    if d.dk == 0 then none
    else match destCause s name with
      | some k => some (k, d.a)
      | none => if long then some (0xB, d.a) else none
  | 1 | 3 =>
    if d.stride < matRow c then some (0x10, v64 c.a 1)
    else if d.dk != 1 then none
    else match lvtLook s core (locTile d.a) (.ofNat 16 (locVer d.a)) with
      | some .readable => if long then some (0xB, d.a) else none
      | some .poisoned => some (0xD, d.a)
      | some .absent => some (0xA, d.a)
      | none =>
        -- FILLING, or above the current version, which no LVT entry holds
        if lvtAbove (s.lvt core (locTile d.a)).ver (.ofNat 16 (locVer d.a)) then some (0xA, d.a) else some (0xB, d.a)
  | _ => none

/-- MATRIX_COMMAND_START (R302): the command starts, or fails before it reads anything (R305). MCFG takes effect. -/
def matrixCommandStartStep (core id : Nat) (s : State) : State :=
  match findCmd s 1 core id with
  | none => s
  | some c =>
    let d := matDesc c.a
    match matStartBad s core c with
    | some (k, v) => failCmd s 1 core id k v
    | none =>
      let base := if d.dk == 1 then (lvtOwner s core (s.lvt core (locTile d.a))).addr * 64 + d.off else d.a.toNat
      let s := if cmdFn c == 0 then s.onCore core fun k => { k with mat := { k.mat with cfg := c.w1.truncate 16 } } else s
      onCmd s 1 core id fun c => { c with run := true, at_ := base }

/-- MLDS_FETCH_COMPLETE (R302, R310): a global source is read at its home, which must be readable then. -/
def mldsFetchCompleteStep (core id : Nat) (s : State) : State :=
  match findCmd s 1 core id with
  | none => s
  | some c =>
    let d := matDesc c.a
    if d.stride < matRow c then failCmd s 1 core id 0x10 (v64 c.a 1)
    else match findVer s (refOf c.asid d.a) with
      | none => failCmd s 1 core id 0xA d.a
      | some e =>
        if ansOf e != .readable then failCmd s 1 core id (if e.state == .filling then 0xB else ansCause (ansOf e)) d.a
        else if e.size < d.off + matSpan c then failCmd s 1 core id 0xB d.a
        else if (ownerOf s e).proxy then
          readSource (onCmd s 1 core id fun c => { c with unacked := 1 }) (ownerOf s e) d.off (matSpan c) (.fetch 1 core id false)
        else
          let bytes := verBytes s e d.off (matSpan c)
          onCmd s 1 core id fun c => { c with buf := bytes, fetched := true }

/-- An error strikes the storage of a version that a core's MLDS is to fetch: whether the fetch is what finds it is free. Such a
command fails (R305); its TVAL is the reference (log 66, DESIGN CHOICE). -/
def fetchStrike (s : State) (ref : Ref) (core : Nat) : State :=
  (s.core core).mat.queue.foldl (fun s c =>
    if cmdFn c == 1 && (matDesc c.a).dk == 2 && refOf c.asid (matDesc c.a).a == ref && !c.fetched && c.failed.isNone &&
        matMayFetch s core c then
      let (finds, s) := s.drawBit
      if finds then failCmd s 1 core c.id 0x17 (matDesc c.a).a else s
    else s) s

/-- UNCORRECTABLE_ERROR (R189, R236, R305, R407). -/
def uncorrectableErrorStep (at_ : ErrAt) (s : State) : State :=
  match at_ with
  | .line pa => lineStrike s pa
  | .loft c a => loftStrike (s.onCore c fun k => { k with loftPoison := a :: k.loftPoison.filter (· != a) }) c a
  | .l1 c i => s.onCore c fun k => { k with l1 := k.l1.eraseIdx i }
  | .version ref => versionStrike ((s.cores.map (·.1)).foldl (fun s c => fetchStrike s ref c) s) ref
  | .corrected kind source =>
    (match kind with
     | 0 => hostErr s false
     | 1 => sliceCe s source
     | 2 => srcCe s 2 source (source / 128)
     | 3 => srcCe s 3 source (source / 24)
     | _ => srcCe s 4 source (jointDie source))
  | .host pa => { s with poison := markLine s.poison (hostLine pa) true }
  | .link kind source => if kind == 3 then srcUe s 3 source (source / 24) else srcUe s 4 source (jointDie source)

/-! ## Planes and accumulators as lists -/

/-- Entries `k … k+n-1` of a sparse table whose numbers rise. -/
def denseOf {α : Type} (d : α) : AMap α → Nat → Nat → List α
  | _, _, 0 => []
  | [], k, n + 1 => d :: denseOf d [] (k + 1) n
  | (j, v) :: r, k, n + 1 => if j = k then v :: denseOf d r (k + 1) n else d :: denseOf d ((j, v) :: r) (k + 1) n

/-- A sparse table of a list, without the entries that are `d`. -/
def sparseOf {α : Type} [DecidableEq α] (d : α) : List α → Nat → AMap α
  | [], _ => []
  | v :: r, k => if v = d then sparseOf d r (k + 1) else (k, v) :: sparseOf d r (k + 1)

def exPlusZero : Ex := .num false 0 0

/-- A list cut into `n` lists of `m`. -/
def rowsOf {α : Type} (m : Nat) : Nat → List α → List (List α)
  | 0, _ => []
  | n + 1, l => l.take m :: rowsOf m n (l.drop m)

/-- The accumulator rows. -/
def accRows (m : Matrix) : List (List (BitVec 32)) := rowsOf 64 128 (denseOf 0 m.acc 0 8192)
def putAcc (m : Matrix) (rows : List (List (BitVec 32))) : Matrix := { m with acc := sparseOf 0 rows.flatten 0 }

/-- Columns of 64 rows. -/
def transpose64 {α : Type} (d : α) (rows : List (List α)) : List (List α) :=
  (List.range 64).map fun k => rows.map fun r => r.getD k d

/-- The values of a plane (R297). -/
def planeVals (p : Plane) : List Ex := (denseOf plusZeroElem p.elems 0 4096).map elemVal

/-- One row streamed past the plane: two chunks of 32 into each accumulator of its row (R301). -/
def streamRow (cols : List (List Ex)) (a : List Ex) (acc : List (BitVec 32)) : List (BitVec 32) :=
  List.zipWith (fun x col =>
    let ps := List.zipWith exMul a col
    .ofNat 32 (rndCode f32 0 (accChunk (accChunk (decodeF f32 x.toNat) (ps.take 32)) (ps.drop 32)))) acc cols

/-- Rows streamed in order from accumulator row `h` on, modulo 128 (R301). -/
def streamRows (cols : List (List Ex)) : List (List Ex) → Nat → List (List (BitVec 32)) → List (List (BitVec 32))
  | [], _, acc => acc
  | a :: as, h, acc => streamRows cols as (h + 1) (onNth (streamRow cols a) acc (h % 128))

/-- Canonical NaN of FP32 (R133). -/
def nan32 : BitVec 32 := .ofNat 32 f32.nan

/-- The bytes of a drained row (R314). -/
def drainRow (w0 : Word32) (row : List (BitVec 32)) : List Byte :=
  let ofmt := wf w0 8 3
  let inf := wf w0 11 1 == 1
  let z := mdrnWidth ofmt
  row.flatMap fun x =>
    let v := decodeF f32 x.toNat
    leBytes (match ofmt with
      | 0 => x.toNat
      | 1 => convCode bf16 0 inf v
      | 2 => convCode f16 0 inf v
      | 3 => convCode e4m3 0 inf v
      | 4 => convCode e5m2 0 inf v
      | _ => wrapN (exToInt 0 (-128) 127 v) 8) z

/-! ## Parts -/

/-- Cycles that a streamed row takes (R299). -/
def rowCycles (m : Matrix) (c : Cmd) : Nat := 2^(max (matClass (aFmt c.cfg.toNat)) m.active.cls.toNat)

/-- The cycles of a row of an MSTR are counted when its last part is read (R405). -/
def countRow (s : State) (core : Nat) (c : Cmd) (n : Nat) : State :=
  let p := matPartsPerRow c
  if cmdFn c == 3 && (List.range p).all fun j => n / p * p + j == n || c.got.any fun x => x.1 == n / p * p + j then
    (List.range (rowCycles (s.core core).mat c)).foldl (fun s _ => s.perf core 7 none) s
  else s

/-- Part `n` of an MLDS or MSTR is read (R305, R308, R312). A local version whose bytes are in error becomes POISONED (R189). -/
def matReadPart (s : State) (core : Nat) (c : Cmd) (n : Nat) : State :=
  let d := matDesc c.a
  let p := matPartsPerRow c
  let i := n / p
  let o := n % p * 16
  let z := min 16 (matRow c - o)
  let k := s.core core
  let took (d : List Byte) : State := countRow (onCmd s 1 core c.id fun c => { c with got := aput c.got n d }) core c n
  if d.dk == 2 then took ((c.buf.drop (i * d.stride + o)).take z)
  else
    let a : Word := .ofNat 64 (c.at_ + i * d.stride + o)
    if d.dk == 0 && !rangeOk k c.user c.base c.limit a z false then failCmd s 1 core c.id 8 d.a
    else if loftBad k ((localBytes k a z false).getD []) then
      failCmd (if d.dk == 1 then lvtPoison s core (locTile d.a) else s) 1 core c.id 0x17 a
    else took (localRead k a z)

/-- Part `n` of an MDRN is written (R314). -/
def matWritePart (s : State) (core : Nat) (c : Cmd) (n : Nat) : State :=
  let d := matDesc c.a
  let p := matPartsPerRow c
  let i := n / p
  let row := drainRow c.w0 ((accRows (s.core core).mat).getD (d.first + i) [])
  let done (s : State) : State := onCmd s 1 core c.id fun c => { c with got := aput c.got n [] }
  if d.dk == 0 then
    done (loftWrite s core (d.a.toNat + i * d.stride + n % p * 16) (((row.drop (n % p * 16)).take 16).map some))
  else match fillName s (matData core c) (d.off + i * d.stride) row with
    | (none, s) => done s
    | (some k, s) => failCmd s 1 core c.id k d.a

/-- A running matrix command performs part `n`. -/
def matPart (s : State) (core id n : Nat) : State :=
  match findCmd s 1 core id with
  | none => s
  | some c => if cmdFn c == 5 then matWritePart s core c n else matReadPart s core c n

/-- The rows that a command has read. -/
def matRows (c : Cmd) : List (List Byte) :=
  let p := matPartsPerRow c
  (rowsOf p (matDesc c.a).rows (denseOf [] c.got 0 (matParts c))).map List.flatten

/-! ## Completion and failure -/

/-- What a command does to the unit when it completes (R300, R301, R309-R314). -/
def matEffect (c : Cmd) (m : Matrix) : Matrix :=
  let d := matDesc c.a
  match cmdFn c with
  | 1 =>
    let f := bFmt c.cfg.toNat
    let rows := (matRows c).map (rowElems f (b8Of c.cfg.toNat 11))
    -- value (k, j) at 64 k + j: row j gives column j, or with TR row k is row k
    let elems := if wf c.w0 8 1 == 1 then rows else transpose64 plusZeroElem rows
    { m with shadow := ⟨sparseOf plusZeroElem elems.flatten 0, .ofNat 2 (matClass f)⟩ }
  | 2 => { m with active := m.shadow, shadow := m.active }
  | 3 =>
    let rows := (matRows c).map (rowVals (aFmt c.cfg.toNat) (b8Of c.cfg.toNat 6))
    let cols := transpose64 exPlusZero (rowsOf 64 64 (planeVals m.active))
    putAcc m (streamRows cols rows d.first (accRows m))
  | 4 =>
    let first := bits (c.w1.zeroExtend 64) 22 7
    let n := 4 * (wf c.w0 8 5 + 1)
    { m with acc := m.acc.filter fun e => e.1 / 64 < first || first + n ≤ e.1 / 64 }
  | 5 =>
    if wf c.w0 12 1 == 1 then
      { m with acc := m.acc.filter fun e => e.1 / 64 < d.first || d.first + d.rows ≤ e.1 / 64 }
    else m
  | _ => m

/-- MATRIX_COMMAND_COMPLETE (R301, R303, R304). -/
def matrixCommandCompleteStep (core id : Nat) (s : State) : State :=
  match findCmd s 1 core id with
  | none => s
  | some c =>
    let s := s.onCore core fun k => { k with mat := matEffect c k.mat }
    leaveCmd (fillC s c (matComp core c)) 1 core c

/-- What a failed command does to the unit (R305). -/
def matFailEffect (c : Cmd) (m : Matrix) : Matrix :=
  let d := matDesc c.a
  match cmdFn c with
  | 1 => { m with shadow := ⟨(List.range 4096).map fun i => (i, nanElem), 2⟩ }
  | 3 =>
    let hit (h : Nat) : Bool := (h + 128 - d.first) % 128 < d.rows
    putAcc m ((accRows m).zipIdx.map fun (r, h) => if hit h then r.map fun _ => nan32 else r)
  | _ => m

/-- MATRIX_COMMAND_FAIL (R305). -/
def matrixCommandFailStep (core id cause : Nat) (tval : Word) (s : State) : State :=
  match findCmd s 1 core id with
  | none => s
  | some c =>
    let s := s.onCore core fun k => { k with mat := matFailEffect c k.mat }
    let s := if cmdFn c == 5 then poisonName s (matData core c) else s
    let s := poisonName s (matComp core c)
    leaveCmd (reportCmd s c cause tval) 1 core c

/-- UNCORRECTABLE_ERROR (R189). -/
def execUncorrectableError (s : State) : Out :=
  .next (match s.packet with | .uncorrectableError a => uncorrectableErrorStep a s | _ => s)
/-- MATRIX_COMMAND_START (R302). -/
def execMatrixCommandStart (s : State) : Out :=
  .next (match s.packet with | .matrixCommandStart c id => matrixCommandStartStep c id s | _ => s)
/-- MLDS_FETCH_COMPLETE (R302). -/
def execMldsFetchComplete (s : State) : Out :=
  .next (match s.packet with | .mldsFetchComplete c id => mldsFetchCompleteStep c id s | _ => s)
/-- MATRIX_COMMAND_COMPLETE (R304). -/
def execMatrixCommandComplete (s : State) : Out :=
  .next (match s.packet with | .matrixCommandComplete c id => matrixCommandCompleteStep c id s | _ => s)
/-- MATRIX_COMMAND_FAIL (R305). -/
def execMatrixCommandFail (s : State) : Out :=
  .next (match s.packet with | .matrixCommandFail c id k v => matrixCommandFailStep c id k v s | _ => s)

end Sys2Proof.Machine
end

