-- ==== Sys2Proof/Machine/Drain.lean ====
section
/-! DEFINITION. STORE_BUFFER_DRAIN (R50): when an entry of a core's store buffer may leave, and where it goes. Commands,
messages and Larder requests of the network interface's outbound queue leave in the same order. -/

namespace Sys2Proof.Machine

/-- Bytes that an effect on global memory writes or works on. -/
def effLen : Eff → Nat
  | .store _ _ _ d => d.length
  | .amo _ _ _ wide _ _ => amoBytes wide
  | .vamo .. => 64
  | _ => 0

/-- The bytes that an entry touches: physical where it is translated (a discard's whole line), else normalised global
addresses. -/
def entryRanges (s : State) (e : SbEnt) : List (Bool × Nat × Nat) :=
  match effGlobal e.eff with
  | none => []
  | some g =>
    let n := effLen e.eff
    let whole := match e.eff with | .discard _ => true | _ => false
    if e.tr.isEmpty then [(false, (s.norm g).toNat, n)]
    else e.tr.map fun (o, pa, _) =>
      if whole then (true, pa / 128 * 128, 128)
      else (true, pa, if o = 0 then (if 1 < e.tr.length then 64 - g.toNat % 64 else n) else n - o)

def rangesMeet (a b : List (Bool × Nat × Nat)) : Bool :=
  a.any fun x => b.any fun y => x.1 == y.1 && x.2.1 < y.2.1 + y.2.2 && y.2.1 < x.2.1 + x.2.2

/-- The home slice that a tile request goes to (R226): a fork's goes to its source's home. -/
def tileHome : Packet → Option Nat
  | .tforkAtHome _ source _ _ _ => some (homeRef source)
  | .tnewAtHome r _ => some (homeRef r.ref)
  | .tstAtHome r _ _ => some (homeRef r.ref)
  | .tsealAtHome r _ _ _ => some (homeRef r.ref)
  | .tholdAtHome r => some (homeRef r.ref)
  | .decrementAtHome r => some (homeRef r.ref)
  | .taliasAtHome r _ _ => some (homeRef r.ref)
  | .tguardAtHome r _ => some (homeRef r.ref)
  | .tpinAtHome r _ => some (homeRef r.ref)
  | .tmoveAtHome r _ => some (homeRef r.ref)
  | _ => none

/-- A part of the entry is a die-local access (R196). -/
def entryLocal (s : State) (c : Nat) (e : SbEnt) : Bool :=
  match e.eff with
  | .store _ true _ _ | .amo _ true _ _ _ _ | .vamo _ true _ _ _ => true
  | f => match effGlobal f with
    | some g => e.tr.any fun x => dieLocal s c g x.2.2
    | none => false

/-- An entry may leave beside one ahead of it that is still under way (R196-R198, R252): a plain store or atomic to other
bytes, unless both are die-local; a tile request to the same home; anything beside a CLEAN (R224). -/
def leavesBeside (s : State) (c : Nat) (e x : SbEnt) : Bool :=
  match e.eff, x.eff with
  | .tile p, .tile q =>
    (match q with | .tforkAtHome .. => false | _ => true) && (tileHome p).isSome && tileHome p == tileHome q
  | .tile _, _ => false
  | _, .tile _ | _, .larder _ | _, .clean .. => true
  | _, _ =>
    (effGlobal x.eff).isSome && !(entryLocal s c e && entryLocal s c x) && !rangesMeet (entryRanges s e) (entryRanges s x)

/-- An entry leaves only when what it orders ahead of it has been performed: a release, a returning atomic, a fence, a command or
message (R199, R202, R219, R222). -/
def leavesLast (e : SbEnt) : Bool :=
  match e.eff with
  | .store _ _ rel _ => rel != 0
  | .amo _ _ _ _ _ rel | .vamo _ _ _ _ rel => rel != 0 || e.ret.isSome
  | .discard _ | .tile _ => false
  | _ => true

/-- An entry ahead works on a line of a CLEAN's range: its home gets it first (R22, R224). -/
def cleanMeets (s : State) (g len : Word) (x : SbEnt) : Bool :=
  match effGlobal x.eff with
  | none => false
  | some y =>
    let a := (s.norm g).toNat
    let p := (s.norm y).toNat
    p / 128 * 128 < a + min len.toNat (2^32) && a / 128 * 128 < p + max 1 (effLen x.eff)

/-- The entry is an access to another device, or a CLEAN there. -/
def entryFar (s : State) (x : SbEnt) : Bool := toDevice x || match x.eff with | .clean g _ => isRemote (s.norm g) | _ => false

/-- An engine command reads or writes another device (R202). -/
def engineFar (s : State) (x : Cmd) : Bool :=
  let far (e : Endpoint) : Bool := e.kind == 0 && isRemote (s.norm e.a)
  far (engDst x) || readsProxy s x || match engSrc x with | some e => far e | none => false

/-- The entry is a release at SYSTEM scope, or may be one: the core does not know the scope of a version's seal (R199, R201, R202,
R203; log 71, DEDUCED). -/
def releasesAll (s : State) (e : SbEnt) : Bool :=
  match e.eff with
  | .store _ _ rel _ | .amo _ _ _ _ _ rel | .vamo _ _ _ _ rel => rel == 5
  | .fence _ scope => scope == 5
  | .push .. | .send .. | .larder _ | .ltile .. => false
  | .cmd w0 w1 a b =>
    if majorOf w0 == 0x74 then false
    else if majorOf w0 == 0x76 then engineFar s (newCmd e 0 w0 w1 a b)
    else true
  | _ => true

/-- An entry waits until `x`, ahead of it in the store buffer, has been performed. A push, a request to the Larder and one of a
local version wait for every entry (R252, R290, R333). What goes to another device waits, and is waited for, at SYSTEM scope alone
(R199, R204); a CLEAN waits for its lines alone (R198, R224). -/
def waitsFor (s : State) (c : Nat) (e x : SbEnt) : Bool :=
  match e.eff with
  | .push .. | .ltile .. | .larder _ => true
  | .clean g len => cleanMeets s g len x
  | _ =>
    if leavesLast e && (releasesAll s e || e.ret.isSome) then true
    else if leavesLast e && toDevice e then !leavesBeside s c e x
    else if leavesLast e then !entryFar s x
    else !leavesBeside s c e x

/-- XCAN, which is no release (R330). -/
def isXcan : Eff → Bool
  | .cmd w _ _ _ => majorOf w == 0x76 && wf w 13 5 == 4
  | _ => false

/-- The effect stands in the network interface's outbound queue, not in the store buffer (R50). -/
def isOutbound : Eff → Bool
  | .cmd .. | .send .. => true
  | _ => false

/-- The entries ahead of an entry. -/
def sbAhead (k : Core) (seq : Nat) : List SbEnt := k.sb.takeWhile fun e => e.seq != seq

/-- The port of a link command (R348, R350). -/
def cmdNode (w0 : Word32) (a b : Token) : Nat :=
  let r := if wf w0 13 5 == 1 then a else b
  if bits (v64 r 1) 0 2 == 0 then nodeOf (v64 r 0) else bits (v64 r 1) 2 7

/-- A port whose queue of 64 commands is full takes no more (R342, R350); those of a core that is being pre-empted go to
where the save takes them from. -/
def portRoom (s : State) (c : Nat) : Eff → Bool
  | .cmd w0 _ a b =>
    majorOf w0 == 0x74 || majorOf w0 == 0x76 || (s.core c).preemptAt.isSome ||
      (match s.portTo (cmdNode w0 a b) with
       | some p => decide (((s.port p).cmds.filter inQueue).length < 64)
       | none => true)
  | _ => true

/-- An entry may leave: those ahead of it in its queue have left, and it waits for what it must (R50). -/
def mayDrain (s : State) (c : Nat) (e : SbEnt) : Bool :=
  let ahead := sbAhead (s.core c) e.seq
  let queue := ahead.filter fun x => isOutbound x.eff == isOutbound e.eff
  !e.left && portRoom s c e.eff && (queue.all fun x => x.left) &&
    (if isXcan e.eff then true
     else (if isOutbound e.eff then ahead else queue).all fun x => !waitsFor s c e x)

/-- Mark an entry as on its way. -/
def sbLeft (s : State) (c seq : Nat) : State :=
  s.onCore c fun k => { k with sb := k.sb.map fun e => if e.seq == seq then { e with left := true } else e }
/-- The entry's room is free again: it has been performed. -/
def sbGone (s : State) (c seq : Nat) : State := s.onCore c fun k => { k with sb := k.sb.filter fun e => e.seq != seq }

/-- The part of an effect from byte `o` on, `n` bytes. -/
def effPart (e : Eff) (o n : Nat) : MemOp :=
  match e with
  | .store _ _ _ d => .write ((d.drop o).take n)
  | .amo _ _ fn wide b _ => .amo fn wide b
  | .vamo _ _ fn b _ => .vamo fn b
  | _ => .discard

/-- A store or atomic on the Loft is performed (R213, R218). -/
def loftEff (s : State) (c : Nat) (e : SbEnt) : State :=
  let back (s : State) (wide : Bool) (old : List Byte) : State :=
    match e.ret with
    | some src => s.emit (.resultReturn none src (.tok (amoTok wide old)))
    | none => s
  let err (a n : Nat) : Bool := (s.core c).loftPoison.any fun x => a ≤ x && x < a + n
  match e.eff with
  | .store g _ _ d => loftWrite s c g.toNat d
  | .amo g _ fn wide b _ =>
    let n := amoBytes wide
    if err g.toNat n then
      let s := s.count 8
      (match e.ret with
       | some src => s.emit (.resultReturn none src (.tok (nullTok (if wide then 0 else 1))))
       | none => s)
    else
      let old := memBytes (s.core c).loft g.toNat n
      back (loftWrite s c g.toNat (amoData fn wide b old)) wide old
  | .vamo g _ fn b _ =>
    if err g.toNat 64 then s.count 8
    else loftWrite s c g.toNat (vamoData fn b (memBytes (s.core c).loft g.toNat 64))
  | _ => s

/-- CLEAN is performed (R224): on this device's homes, or at the peer's. -/
def cleanNow (s : State) (c : Nat) (e : SbEnt) (g len : Word) : State :=
  let n := min len.toNat (2^32)
  if isRemote (s.norm g) then
    if (s.portTo (nodeOf g)).isNone then sbGone s c e.seq
    else sendRemote (sbLeft s c e.seq)
      { orig := .sb c e.seq none, g := g, asid := e.asid, user := e.user, core := some c, op := .clean n }
  else
    sbGone (cleanGlobal s e.asid g n) c e.seq

/-- A tile request with its place in the store buffer. -/
def tileAt (f : TReq → TReq) : Packet → Packet
  | .tforkAtHome r a b c d => .tforkAtHome (f r) a b c d
  | .tnewAtHome r d => .tnewAtHome (f r) d
  | .tstAtHome r o d => .tstAtHome (f r) o d
  | .tsealAtHome r a b c => .tsealAtHome (f r) a b c
  | .tholdAtHome r => .tholdAtHome (f r)
  | .decrementAtHome r => .decrementAtHome (f r)
  | .taliasAtHome r a b => .taliasAtHome (f r) a b
  | .tguardAtHome r g => .tguardAtHome (f r) g
  | .tpinAtHome r p => .tpinAtHome (f r) p
  | .tmoveAtHome r h => .tmoveAtHome (f r) h
  | p => p

/-- A local tile request is performed; it is acknowledged at once (R252, R253). -/
def ltileNow (s : State) (c : Nat) (e : SbEnt) (l ver : Nat) (q : LTile) : State :=
  let (k, s) := lvtApply s c l ver q
  let s := (sbGone s c e.seq).onStrand c e.strand fun d => { d with ackTiles := d.ackTiles - 1 }
  let s := match k with
    | some k => report s c e.strand e.launch (reportRec k (.ofNat 64 (l * 2^32 + ver)) e.blk e.src.lsid)
    | none => s
  haltCheck s c e.strand

/-- A push reaches the head of the buffer and writes its reserved entry (R333). -/
def pushNow (s : State) (c dir : Nat) (t : Token) : State :=
  match neighbour c dir with
  | none => s
  | some n => s.onChan n (opposite dir) fun h => { h with ents := h.ents ++ [(s.cycle, t)], resv := h.resv - 1, tail := h.tail + 1 }

/-- A command leaves for its unit (R302, R320, R330, R350). A command whose port is not up fails (R352). -/
def commandNow (s : State) (c : Nat) (e : SbEnt) (w0 w1 : Word32) (a b : Token) : State :=
  let id := s.nextId
  let x := newCmd e id w0 w1 a b
  let s := s.fresh
  match majorOf w0 with
  | 0x74 => enterMatrix s c x
  | 0x76 =>
    if wf w0 13 5 == 4 then s.emit (.xcanAtEngine c e.asid (w0.getLsbD 8) (v64 a 0))
    else s.emit (.engineCommandArrival (engineOf c) x)
  | _ =>
    let r := if wf w0 13 5 == 1 then a else b
    let node := cmdNode w0 a b
    match s.portTo node with
    | some p => s.onPort p fun q => { q with cmds := q.cmds ++ [x] }
    | none =>
      let p := aget s.routes node 15 % 12
      failCmd (s.onPort p fun q => { q with cmds := q.cmds ++ [x] }) 2 p id 0x11
        (.ofNat 64 ((v64 r 1).toNat / 64 * 64 + 4))

/-- The die whose Larder a held request goes to (R290). -/
def larderDie : LReq → Nat
  | .sarr h .. => bits h 14 2
  | .sset _ h _ => bits h 14 2
  | .sqry h => bits h 14 2
  | .confirm k _ => k / 4096
  | _ => 0

/-- STORE_BUFFER_DRAIN (R50): entry `seq` of core `c`'s store buffer leaves. -/
def storeBufferDrainStep (c seq : Nat) (s : State) : State :=
  match (s.core c).sb.find? fun e => e.seq == seq with
  | none => s
  | some e =>
    match e.eff with
    | .store _ true _ _ | .amo _ true _ _ _ _ | .vamo _ true _ _ _ => sbGone (loftEff s c e) c seq
    | .store g _ _ _ | .amo g _ _ _ _ _ | .vamo g _ _ _ _ | .discard g =>
      let n := effLen e.eff
      let s := sbLeft s c seq
      if e.tr.isEmpty then
        (parts64 g n).foldl (fun s p => sendRemote s
          { orig := .sb c seq e.ret, g := g + .ofNat 64 p.1, asid := e.asid, user := e.user, core := some c
            op := effPart e.eff p.1 p.2 }) s
      else
        e.tr.foldl (fun s (o, pa, leaf) =>
          let len := if o = 0 && 1 < e.tr.length then 64 - g.toNat % 64 else n - o
          s.emit (.homeAccess
            { orig := .sb c seq e.ret, g := g + .ofNat 64 o, asid := e.asid, user := e.user, core := some c
              op := effPart e.eff o len } pa leaf)) s
    | .clean g len => cleanNow s c e g len
    | .tile p => (sbLeft s c seq).emit (tileAt (fun r => { r with blk := e.blk, seq := seq, launch := e.launch }) p)
    | .ltile l ver q => ltileNow s c e l ver q
    | .push dir t => sbGone (pushNow s c dir t) c seq
    | .send dest cls pay =>
      (sbGone s c seq).emit (.messageArrival
        { dest := dest, cls := cls, pay := pay, core := c, strand := e.strand, time := e.time, asid := e.asid, trap := false })
    | .larder q => (sbLeft s c seq).emit (.larderRequest (larderDie q) q e.src e.asid e.blk e.launch (some seq))
    | .cmd w0 w1 a b => commandNow (sbGone s c seq) c e w0 w1 a b
    | .fence .. | .inv _ _ => sbGone s c seq

/-- STORE_BUFFER_DRAIN (R50). -/
def execStoreBufferDrain (s : State) : Out :=
  .next (match s.packet with | .storeBufferDrain c k => storeBufferDrainStep c k s | _ => s)

end Sys2Proof.Machine
end

