-- ==== Sys2Proof/Machine/Link.lean ====
section
/-! DEFINITION. XPUT and XGET and the commands of the ports (R346-R352), and the Kiln (R353, R354). -/

namespace Sys2Proof.Machine

/-! ## Firing (R346-R349) -/

/-- What a form of major 0x79 asks. `ofmt` is the FMT code 3-5 of R228, `ifmt` 0 BF16 or 1 FP32. -/
structure LinkForm where
  get : Bool
  efq : Bool
  fold : Bool
  ofmt : Nat
  ifmt : Nat
  n : Nat
  deriving DecidableEq, Repr

def linkForm (c : Cmd) : LinkForm :=
  { get := cmdFn c == 1, efq := c.w0.getLsbD 8, fold := c.w0.getLsbD 9, ofmt := 3 + wf c.w0 10 2, ifmt := wf c.w0 12 1
    n := c.w1.toNat % 2^28 }

/-- The remote descriptor (R348). -/
structure RemDesc where
  dk : Nat
  a : Word
  node : Nat
  off : Nat
  guard : Word
  rank : Nat
  nr : Nat
  dnel : Nat
  staging : BitVec 32
  deriving DecidableEq, Repr

def remDesc (t : Token) : RemDesc :=
  let l1 := v64 t 1
  let l3 := v64 t 3
  let dk := bits l1 0 2
  { dk := dk, a := v64 t 0, node := if dk == 0 then nodeOf (v64 t 0) else bits l1 2 7, off := bits l1 16 28
    guard := v64 t 2, rank := bits l3 0 6, nr := bits l3 6 6 + 1, dnel := bits l3 12 28
    staging := .ofNat 32 (bits (v64 t 4) 0 32) }

/-- The residual fields of an EFQ source (R347). -/
structure Resid where
  rin : Word
  rout : Nat
  bf16 : Bool
  refs : Nat
  off : Nat
  deriving DecidableEq, Repr

def residOf (t : Token) : Resid :=
  let l4 := v64 t 4
  { rin := v64 t 2, rout := bits l4 0 32, bf16 := l4.getLsbD 32, refs := bits l4 33 12, off := bits (v64 t 5) 0 28 }
/-- The residual-out version, in RIN's tile. -/
def Resid.out (r : Resid) : Word := .ofNat 64 (bits r.rin 32 32 * 2^32 + r.rout)
def Resid.width (r : Resid) : Nat := if r.bf16 then 2 else 4

def ifWidth (f : LinkForm) : Nat := if !f.efq && !f.fold then 1 else if f.ifmt == 1 then 4 else 2
/-- Bytes that the command reads of its source, or writes to its local destination. -/
def linkBytes (f : LinkForm) : Nat := f.n * ifWidth f

/-- The lane in which the local operand breaks R322 or R347. -/
def badLocal (f : LinkForm) (t : Token) : Option Nat :=
  let e := endpoint t
  if f.get then (if !endLane1 t true false then some 1 else if e.lane2 != 0 then some 2 else none)
  else if !endLane1 t false true || (f.efq && e.kind != 2) then some 1
  else if !f.efq && e.lane2 != 0 then some 2
  else if (if f.efq then bits (v64 t 4) 45 19 != 0 else v64 t 4 != 0) then some 4
  else if (if f.efq then bits (v64 t 5) 28 36 != 0 else v64 t 5 != 0) then some 5
  else none

/-- The lane in which the remote descriptor breaks R348 or R349. -/
def badRemote (s : State) (f : LinkForm) (t : Token) : Option Nat :=
  let d := remDesc t
  let l1 := v64 t 1
  let far : Bool := d.node < 0x7F && d.node != s.sysnum.toNat
  let l1bad := (d.dk != 0 && d.dk != 2) || bits l1 9 7 != 0 || bits l1 44 20 != 0 || (d.dk == 0 && bits l1 2 7 != 0) ||
    (d.dk == 2 && !far) || ((f.efq || f.fold) && d.dk != 2) || (f.efq && d.off % 32 != 0)
  let l3 := v64 t 3
  let l3bad := bits l3 40 24 != 0 || (!f.efq && !f.fold && l3 != 0) || (!f.fold && bits l3 6 6 != 0) ||
    ((f.fold || !f.efq) && d.dnel != 0) || (f.fold && d.nr ≤ d.rank) || (f.efq && !f.fold && d.dnel < d.off + f.n)
  if d.dk == 0 && !far then some 0
  else if l1bad then some 1
  else if f.get then none
  else if !f.efq && d.guard != 0 then some 2
  else if l3bad then some 3
  else if (if f.fold then bits (v64 t 4) 32 32 != 0 else v64 t 4 != 0) then some 4
  else none

/-- Detections of R349 in order: cause and TVAL. `loc` is the local operand, `rem` the remote descriptor. -/
def linkChecks (s : State) (f : LinkForm) (loc rem : Token) : Option (Nat × Word) :=
  let e := endpoint loc
  let d := remDesc rem
  let r := residOf loc
  let la := if f.get then 8 else 0
  let bl := (badLocal f loc).map (la + ·)
  let br := (badRemote s f rem).map (8 - la + ·)
  let lane := if f.get then br.or bl else bl.or br
  let refs := endRefs e true ++ (if f.efq then [(false, r.rin), (false, r.out)] else []) ++ (if d.dk == 2 then [(false, d.a)] else [])
  let n := linkBytes f
  match lane with
  | some l => some (0x11, .ofNat 64 l)
  | none =>
    if f.efq && f.n % 32 != 0 then some (0x11, 16)
    else match refs.find? fun (l, x) => !cmdRefOk l x with
      | some (_, x) => some (0xB, x)
      | none =>
        if 2 ≤ e.kind && 2^28 < e.off + n then some (0xB, e.a)
        else if f.efq && 2^28 < r.off + f.n * r.width then some (0xB, r.rin)
        else if d.dk == 2 && 2^28 < d.off + f.n then some (0xB, d.a)
        else if (s.portTo d.node).isNone then some (8, v64 rem 1)
        else if e.kind == 0 && !fieldsOk e.a then some (8, e.a)
        else (badLoft s e n f.get).map fun a => (8, a)

/-- A link form fires (R349). -/
def linkFire (f : LinkForm) (pr : BitVec 2) (lsid : BitVec 5) (arg : BitVec 32) (s : State) : State :=
  fireAB s pr fun o s =>
    let null := if f.get then anyNull o.a 0 16 || anyNull o.b 0 32 else anyNull o.a 0 48 || anyNull o.b 0 40
    if null then arriveHere s lsid
    else match (if f.get then linkChecks s f o.b o.a else linkChecks s f o.a o.b) with
      | some (cause, tval) => faultHere s cause tval (some lsid.toNat)
      | none => holdCmd s lsid arg o.a o.b

/-- XPUT with RAW (R351). -/
def execXput (pr : BitVec 2) (lsid : BitVec 5) (arg : BitVec 32) (s : State) : Out :=
  .next (linkFire ⟨false, false, false, 3, 0, engLen arg⟩ pr lsid arg s)
/-- XPUT with EFQ (R353). -/
def execXputEfq (pr : BitVec 2) (lsid : BitVec 5) (fold : BitVec 1) (ofmt : BitVec 2) (ifmt : BitVec 1) (arg : BitVec 32)
    (s : State) : Out :=
  .next (linkFire ⟨false, true, fold == 1, 3 + ofmt.toNat, ifmt.toNat, engLen arg⟩ pr lsid arg s)
/-- XPUT with FOLD (R355). -/
def execXputFold (pr : BitVec 2) (lsid : BitVec 5) (ifmt : BitVec 1) (arg : BitVec 32) (s : State) : Out :=
  .next (linkFire ⟨false, false, true, 3, ifmt.toNat, engLen arg⟩ pr lsid arg s)
/-- XGET (R351). -/
def execXget (pr : BitVec 2) (lsid : BitVec 5) (arg : BitVec 32) (s : State) : Out :=
  .next (linkFire ⟨true, false, false, 3, 0, engLen arg⟩ pr lsid arg s)

/-! ## Commands of a port (R350-R352) -/

/-- The local operand and the remote descriptor of a command. -/
def linkLocal (c : Cmd) : Token := if cmdFn c == 1 then c.b else c.a
def linkRem (c : Cmd) : RemDesc := remDesc (if cmdFn c == 1 then c.a else c.b)
def linkLane1 (c : Cmd) : Word := v64 (if cmdFn c == 1 then c.a else c.b) 1
/-- The completion version (R347, R322). -/
def linkComp (c : Cmd) : VName := (endpoint (linkLocal c)).comp c

/-- The oldest queued command of a port (R350). -/
def nextLink (s : State) (p : Nat) : Option Cmd := (s.port p).cmds.find? inQueue

/-- Units of at most 64 source bytes, or under EFQ of one block (R353), that a command moves; XGET writes in pieces as
an engine does. -/
def linkUnits (c : Cmd) : Nat :=
  let f := linkForm c
  if f.get then 3 * ((f.n + 63) / 64) else if f.efq then f.n / 32 else (linkBytes f + 63) / 64
/-- Parts: the units, and the guard word (R354). -/
def linkParts (c : Cmd) : Nat := linkUnits c + (if (linkForm c).efq && bits (linkRem c).guard 0 32 != 0 then 1 else 0)

/-- Why a source or residual version is not fit for the Kiln (R353): its FMT. -/
def kilnFmtBad (s : State) (c : Cmd) (ref : Word) (ok : List Nat) : Bool :=
  match findVer s (refOf c.asid ref) with
  | some v => !ok.contains v.fmt.toNat
  | none => false

/-- What LINK_COMMAND_START does next: ask for a version that the command reads, or run (R351, R353). `at_` counts the
versions that were readable. -/
def linkWants (c : Cmd) : Option (Nat × Word) :=
  let f := linkForm c
  let e := endpoint (linkLocal c)
  if f.get then none
  else if c.at_ == 0 && 2 ≤ e.kind then some (e.kind, e.a)
  else if c.at_ ≤ 1 && f.efq then some (2, (residOf c.a).rin)
  else none

/-- A version that the command reads is a proxy: its bytes come from another device first (R242). -/
def fetchProxy (s : State) (c : Cmd) (p : Nat) (ref : Word) (rin : Bool) : State :=
  match findVer s (refOf c.asid ref) with
  | some v => if (ownerOf s v).proxy then readSource s (ownerOf s v) 0 v.size (.fetch 2 p c.id rin) else s
  | none => s

/-- ROUT is created in RIN's tile (R353, step 1). -/
def createRout (s : State) (c : Cmd) : Except Nat State :=
  let r := residOf c.a
  let size := (linkForm c).n * r.width
  createVer s (refOf c.asid r.out)
    { size := size, pend := size, refs := r.refs, fmt := if r.bf16 then 1 else 2, pin := false, hbm := false
      proxy := none, fork := none }

/-- The source of an XPUT is another device's memory, read by one READ. -/
def linkFar (s : State) (c : Cmd) : Bool :=
  let e := endpoint (linkLocal c)
  !(linkForm c).get && e.kind == 0 && isRemote (s.norm e.a)

/-- LINK_COMMAND_START (R350, R353). ROUT is created before any flit leaves. -/
def linkCommandStartStep (p : Nat) (s : State) : State :=
  match nextLink s p with
  | none => s
  | some c =>
    let f := linkForm c
    let e := endpoint (linkLocal c)
    match linkWants c with
    | some (kind, ref) =>
      let s := onCmd s 2 p c.id fun c => { c with parked := true }
      if kind == 2 then watchVer s (refOf c.asid ref) (.link p c.id) 64 else s
    | none =>
      let (tag, s) := newTag s (.link p c.id)
      let run (s : State) : State := onCmd s 2 p c.id fun c => { c with run := true, tag := tag }
      if f.get then
        let d := linkRem c
        let what : RSrc := if d.dk == 0 then .addr c.asid c.user (d.a + .ofNat 64 d.off) else .tile (refOf c.asid d.a) d.off
        sendFlit (onCmd (run s) 2 p c.id fun c => { c with unacked := 1 }) (.read d.node tag what f.n none)
      else if f.efq then
        match createRout s c with
        | .error k => failCmd s 2 p c.id k (residOf c.a).out
        | .ok s =>
          let s := onCmd (run s) 2 p c.id fun c => { c with rout := true }
          fetchProxy (fetchProxy s c p e.a false) c p (residOf c.a).rin true
      else if e.kind == 2 then run (fetchProxy s c p e.a false)
      else if linkFar s c then
        (match readEnd s c e 0 (linkBytes f) (.fetch 2 p c.id false) with
         | (.bad k v, s) => failCmd s 2 p c.id k v
         | (_, s) => run s)
      else run s

/-- LINK_SOURCE_ANSWER (R351, R353). -/
def linkSourceAnswerStep (p id : Nat) (a : Answer) (s : State) : State :=
  match findCmd s 2 p id with
  | none => s
  | some c =>
    if !c.parked then s
    else match linkWants c with
      | none => s
      | some (_, ref) =>
        let f := linkForm c
        let onRin := 1 ≤ c.at_
        let fmts := if onRin then [if (residOf c.a).bf16 then 1 else 2] else [if f.ifmt == 1 then 2 else 1, 0]
        if a != .readable then failCmd s 2 p id (ansCause a) ref
        else if f.efq && kilnFmtBad s c ref fmts then failCmd s 2 p id 0xB ref
        else onCmd s 2 p id fun c => { c with parked := false, at_ := c.at_ + 1 }

/-! ## The Kiln (R353) -/

def kilnFmt (ofmt : Nat) : Fmt := match ofmt with | 3 => e2m1 | 4 => e4m3 | _ => e5m2
def kilnEmax (ofmt : Nat) : Int := match ofmt with | 3 => 2 | 4 => 8 | _ => 15

/-- One block: scale, codes, residuals, and whether it met a non-finite value. -/
def kilnBlock (ofmt : Nat) (bf : Bool) (g e : List Ex) : Nat × List Nat × List Ex × Bool :=
  let f := kilnFmt ofmt
  let cs := List.zipWith (fun g e => rnd f32 0 (exAdd false g e)) g e
  let bad := cs.any fun c => match c with | .num .. => false | _ => true
  let (x, q) := mxQuant f (kilnEmax ofmt) cs
  let rest : List Ex :=
    if bad then e
    else if cs.all exIsZero then cs
    else List.zipWith (fun c q => rnd f32 0 (exAdd false c (exNeg (mxVal f x q)))) cs q
  (x, q, rest.map fun r => if bf then rnd bf16 0 r else r, bad)

/-- Elements of bytes in a format. -/
def exElems (f : Fmt) (d : List Byte) : List Ex :=
  let z := f.width / 8
  (List.range (d.length / z)).map fun j => decodeF f (leNat ((d.drop (z * j)).take z))

/-- Codes of a block as bytes, nibbles in the layout of R130. -/
def codeBytes (ofmt : Nat) (q : List Nat) : List Byte :=
  if ofmt == 3 then leBytes (packLanes 4 (q.map some)) (q.length / 2) else q.map fun x => .ofNat 8 x

/-! ## Parts -/

/-- Bytes of a source over several lines; the rest of the reading of R351. -/
def readSpan (s : State) (c : Cmd) (e : Endpoint) (use : TagUse) : Nat → Nat → Nat → List Byte → EndAns × State
  | 0, _, _, acc => (.ok acc, s)
  | k + 1, o, n, acc =>
    if n = 0 then (.ok acc, s)
    else
      let m := min n (64 - e.pos o % 64)
      match readEnd s c e o m use with
      | (.ok d, s) => readSpan s c e use k (o + m) (n - m) (acc ++ d)
      | r => r

/-- Bytes of the residual-in version. -/
def readRin (s : State) (c : Cmd) (o n : Nat) : Except Nat (List Byte) :=
  let r := residOf c.a
  match findVer s (refOf c.asid r.rin) with
  | none => .error 0xA
  | some v =>
    if ansOf v != .readable then .error (ansCause (ansOf v))
    else if v.size < r.off + o + n then .error 0xB
    else if (ownerOf s v).proxy then .ok ((c.rbuf.drop (r.off + o)).take n)
    else .ok (verBytes s v (r.off + o) n)

/-- A WRITE flit of a command leaves (R351). -/
def sendWrite (s : State) (p : Nat) (c : Cmd) (w : WDest) (d : List Byte) (last : Bool) : State :=
  onCmd (sendFlit s (.write (linkRem c).node c.tag w c.user (d.map some) last)) 2 p c.id fun c =>
    { c with unacked := c.unacked + 1 }

def linkNext (s : State) (p : Nat) (c : Cmd) : State := onCmd s 2 p c.id fun x => { x with parts := x.parts + 1 }

/-- A unit of an XPUT without EFQ: bytes, or contributions (R351, R355). -/
def putPart (s : State) (p : Nat) (c : Cmd) : State :=
  let f := linkForm c
  let d := linkRem c
  let o := 64 * c.parts
  let n := min 64 (linkBytes f - o)
  match readSpan s c (endpoint c.a) (.fetch 2 p c.id false) 2 o n [] with
  | (.bad k v, s) => failCmd s 2 p c.id k v
  | (.away, s) => s
  | (.ok b, s) =>
    let ref := refOf c.asid d.a
    let w : WDest :=
      if f.fold then .contrib ref d.staging d.rank d.nr (d.off + o / ifWidth f) f.ifmt
      else if d.dk == 0 then .addr c.asid (d.a + .ofNat 64 (d.off + o)) else .fill ref (d.off + o) none
    linkNext (sendWrite s p c w b (c.parts + 1 == linkParts c)) p c

/-- ROUT seals as a guarded version whose guard is SET, with RIN as its predecessor (R354). -/
def sealRout (s : State) (c : Cmd) : State :=
  let r := residOf c.a
  let out := refOf c.asid r.out
  let rin := refOf c.asid r.rin
  match findVer s out with
  | none => s
  | some e =>
    if e.state != .filling then s
    else
      let s := onVer s rin fun x => { x with xref := x.xref + 1 }
      let s := onVer s out fun x => { x with pend := 0, guard := some ⟨rin, some rin.ver, some true⟩ }
      match findVer s out with
      | some e => settleRef (sealVer s e) out
      | none => s

/-- The residuals of a block go to ROUT; the last block of a transfer that met a non-finite value seals it instead
(R354). -/
def fillRout (s : State) (p : Nat) (c : Cmd) (rest : List Ex) (nf last : Bool) : Except Nat State :=
  let r := residOf c.a
  if nf && last then .ok (sealRout s c)
  else
    let d := rest.flatMap fun x => if r.bf16 then leBytes (rndCode bf16 0 x) 2 else leBytes (rndCode f32 0 x) 4
    match fillVer s (refOf c.asid r.out) (32 * r.width * c.parts) (d.map some) with
    | (some k, _) => .error k
    | (none, s) => .ok (onCmd s 2 p c.id fun x => { x with nf := nf })

/-- A block of an EFQ transfer (R353, R354, R355). -/
def kilnPart (s : State) (p : Nat) (c : Cmd) : State :=
  let f := linkForm c
  let d := linkRem c
  let r := residOf c.a
  let i := 32 * c.parts
  let ref := refOf c.asid d.a
  match readSpan s c (endpoint c.a) (.fetch 2 p c.id false) 3 (i * ifWidth f) (32 * ifWidth f) [], readRin s c (i * r.width) (32 * r.width) with
  | (.bad k v, s), _ => failCmd s 2 p c.id k v
  | (.away, s), _ => s
  | (.ok _, s), .error k => failCmd s 2 p c.id k r.rin
  | (.ok gb, s), .ok eb =>
    let (x, q, rest, bad) := kilnBlock f.ofmt r.bf16 (exElems (if f.ifmt == 1 then f32 else bf16) gb)
      (exElems (if r.bf16 then bf16 else f32) eb)
    let nf := c.nf || bad
    let last := c.parts + 1 == linkUnits c
    match fillRout s p c rest nf last with
    | .error k => failCmd s 2 p c.id k r.out
    | .ok s =>
      let s := onCmd s 2 p c.id fun x => { x with nf := nf }
      let codes := codeBytes f.ofmt q
      let fin := c.parts + 1 == linkParts c
      let fmt : BitVec 4 := .ofNat 4 f.ofmt
      let s := if f.fold then
          sendWrite s p c (.contrib ref d.staging d.rank d.nr (d.off + i) (f.ofmt - 1)) (codes ++ [.ofNat 8 x]) fin
        else
          let s := sendWrite s p c (.fill ref ((d.off + i) * fmtBits f.ofmt / 8) (some fmt)) codes false
          sendWrite s p c (.fill ref (sizeE d.dnel f.ofmt + (d.off + i) / 32) (some fmt)) [.ofNat 8 x] fin
      linkNext s p c

/-- The guard word, after every data flit (R354). -/
def guardPart (s : State) (p : Nat) (c : Cmd) : State :=
  let d := linkRem c
  linkNext (sendWrite s p c (.guardWord (refOf c.asid d.guard) (8 * d.rank)) (leBytes (if c.nf then 1 else 0) 8) true) p c

/-- Piece `n` of an XGET's bytes: its offset and length. -/
def getPiece (c : Cmd) (n : Nat) : Nat × Nat :=
  let o := 64 * (n / 3)
  let z := min 64 ((linkForm c).n - o)
  let cut := min z (64 - (endpoint c.b).pos o % 64)
  match n % 3 with | 0 => (o, cut) | 1 => (o + cut, z - cut) | _ => (o + z, 0)

/-- Piece `n` of an XGET's bytes is written here, in no order (R202, R324, R351). -/
def getPart (s : State) (p : Nat) (c : Cmd) (n : Nat) : State :=
  let (o, z) := getPiece c n
  let next (s : State) : State := onCmd s 2 p c.id fun c => { c with parts := c.parts + 1, wrote := n :: c.wrote }
  if z = 0 then next s
  else match writeEnd s c (endpoint c.b) o ((c.buf.drop o).take z) (.link p c.id) with
    | (.ok _, s) => next s
    | (.bad k v, s) => failCmd s 2 p c.id k v
    | (.away, s) => onCmd (next s) 2 p c.id fun c => { c with unacked := c.unacked + 1 }

/-- A running link command performs part `n`: an XGET's piece of that number, an XPUT's next unit. -/
def linkPart (s : State) (p id n : Nat) : State :=
  match findCmd s 2 p id with
  | none => s
  | some c =>
    let f := linkForm c
    if f.get then getPart s p c n
    else if linkUnits c ≤ c.parts then guardPart s p c
    else if f.efq then kilnPart s p c
    else putPart s p c

/-- A command's parked read is cancelled (R239). -/
def cancelLink (s : State) (p : Nat) (c : Cmd) : State :=
  match c.parked, linkWants c with
  | true, some (2, ref) => dropWatch s (refOf c.asid ref) (· == .link p c.id)
  | _, _ => s

/-! ## Completion and failure (R352) -/

/-- The tag of a command's transfer is free again. -/
def freeTag (s : State) (tag : Nat) : State := { s with tags := adel s.tags tag }

/-- LINK_COMMAND_COMPLETE (R352). -/
def linkCommandCompleteStep (p id : Nat) (s : State) : State :=
  match findCmd s 2 p id with
  | none => s
  | some c => fillC (leaveCmd (freeTag s c.tag) 2 p c) c (linkComp c)

/-- The peer of a failed XPUT into a version learns of it (R352, log 32, DEDUCED): a WRITE of no bytes names the version, and a FAIL
for the transfer follows. A node that is not reachable gets them once it is. -/
def abortPeer (s : State) (c : Cmd) (cause : Nat) (tval : Word) : State :=
  let d := linkRem c
  let tag := if c.run then c.tag else freshTag s
  let l : List Flit := [.write d.node tag (.fill (refOf c.asid d.a) d.off none) c.user [] false, .fail d.node tag c.asid cause tval]
  if (s.portTo d.node).isSome then { s.fresh with sent := s.sent ++ l } else { s.fresh with heldFlits := s.heldFlits ++ l }

/-- LINK_COMMAND_FAIL (R352). -/
def linkCommandFailStep (p id cause : Nat) (tval : Word) (s : State) : State :=
  match findCmd s 2 p id with
  | none => s
  | some c =>
    let f := linkForm c
    let d := linkRem c
    let s := poisonName s (linkComp c)
    let s := if f.get then poisonName s ((endpoint c.b).tile c.asid) else s
    let s := if c.rout then poisonName s (.glob (refOf c.asid (residOf c.a).out)) else s
    let s := if !f.get && d.dk == 2 then abortPeer s c cause tval else s
    leaveCmd (reportCmd (if c.run then freeTag s c.tag else s) c cause tval) 2 p c

/-- LINK_COMMAND_START (R350). -/
def execLinkCommandStart (s : State) : Out :=
  .next (match s.packet with | .linkCommandStart p => linkCommandStartStep p s | _ => s)
/-- LINK_COMMAND_COMPLETE (R352). -/
def execLinkCommandComplete (s : State) : Out :=
  .next (match s.packet with | .linkCommandComplete p id => linkCommandCompleteStep p id s | _ => s)
/-- LINK_COMMAND_FAIL (R352). -/
def execLinkCommandFail (s : State) : Out :=
  .next (match s.packet with | .linkCommandFail p id k v => linkCommandFailStep p id k v s | _ => s)
/-- LINK_SOURCE_ANSWER (R353). -/
def execLinkSourceAnswer (s : State) : Out :=
  .next (match s.packet with | .linkSourceAnswer p id a => linkSourceAnswerStep p id a s | _ => s)

end Sys2Proof.Machine
end

