-- ==== Sys2Proof/Machine/Flits.lean ====
section
/-! DEFINITION. What arrives over the chip links (R343-R345, R351, R354-R356), and the ports themselves (R341, R342). -/

namespace Sys2Proof.Machine

/-! ## The bytes of a control flit (R343, R345) -/

/-- TYPE of a flit. -/
def flitType : Flit → Nat
  | .write .. => 1
  | .read .. => 2
  | .rdata .. => 3
  | .access .. => 4
  | .ack .. => 5
  | .fail .. => 6
  | .notice .. => 7
  | .sub .. | .dec .. => 8
  | .credit .. => 9
  | .other _ t => t.toNat

/-- TYPE values that ingress takes. -/
def listedType (t : BitVec 8) : Bool := 1 ≤ t.toNat && t.toNat ≤ 9

/-- FLAGS[0]: the last flit of its transfer; one that is its whole transfer is its last. -/
def flitLast : Flit → Bool
  | .write _ _ _ _ _ last => last
  | .rdata _ _ _ _ last => last
  | _ => true

/-- Data flits that follow. -/
def flitData : Flit → Nat
  | .write _ _ _ _ d _ => (d.length + 63) / 64
  | .rdata _ _ _ d _ => (d.length + 63) / 64
  | _ => 0

/-- The tag of the transfer; 0 for a flit that belongs to none. -/
def flitTag : Flit → Nat
  | .write _ t .. | .read _ t .. | .rdata _ t .. | .access _ t .. | .ack _ t .. | .fail _ t .. => t
  | _ => 0

/-- The ASID that a WRITE goes to. -/
def destAsid : WDest → BitVec 16
  | .addr asid _ => asid
  | .fill r .. | .guardWord r _ | .contrib r .. => r.asid

/-- The ASID of a flit: that of what it names or answers; 0 for one that has none (log 31, DEDUCED). -/
def flitAsid : Flit → BitVec 16
  | .write _ _ dest .. => destAsid dest
  | .read _ _ (.addr asid ..) .. => asid
  | .read _ _ (.tile r _) .. => r.asid
  | .access _ _ acc => acc.asid
  | .rdata _ _ asid .. | .ack _ _ asid _ | .fail _ _ asid .. => asid
  | .notice _ r .. | .sub _ r _ | .dec _ r => r.asid
  | .credit .. | .other .. => 0

/-- The common header of a flit of device `src`. -/
def flitHead (src : Nat) (f : Flit) : List Byte :=
  leBytes (flitType f) 1 ++ leBytes (if flitLast f then 1 else 0) 1 ++ leBytes (flitAsid f).toNat 2 ++ leBytes src 1 ++
    leBytes (flitNode f) 1 ++ leBytes (flitData f) 2 ++ leBytes (flitTag f) 4

def noticeCode : Answer → Nat
  | .readable => 0
  | .poisoned => 1
  | .absent => 2

/-- The 64 bytes of a NOTICE flit; byte fields not named are zero. -/
def noticeBytes (src node : Nat) (r : Ref) (a : Answer) (fmt : BitVec 4) (size : Nat) (time : BitVec 40) : List Byte :=
  flitHead src (.notice node r a fmt size time) ++ leBytes (noticeCode a) 1 ++ leBytes fmt.toNat 1 ++ leBytes 0 2 ++
    leBytes r.tn.toNat 4 ++ leBytes r.ver.toNat 4 ++ leBytes (size % 2^28) 4 ++ leBytes time.toNat 5 ++ List.replicate 31 0

/-! ## Accesses of peers -/

/-- Lines that `n` bytes from `a` on reach into, at most. -/
def lineCount (a n : Nat) : Nat := (a % 64 + n + 63) / 64

/-- A peer's write to addresses, line by line: the cause and address of the first that fails (R352). -/
def writeLines (s : State) (asid : BitVec 16) (user : Bool) : Nat → Word → List (Option Byte) → Option (Nat × Word) × State
  | 0, _, _ => (none, s)
  | k + 1, g, d =>
    if d.isEmpty then (none, s)
    else
      let m := min d.length (64 - g.toNat % 64)
      if isRemote (s.norm g) || !fieldsOk g then (some (8, g), s)
      else match xlate s g asid user true false none with
        | (.error c, s) => (some (c, g), s)
        | (.ok (leaf, pa), s) => writeLines (memOp s leaf pa (.write (d.take m))).2 asid user k (g + .ofNat 64 m) (d.drop m)

/-- A peer's read of addresses, line by line (R351). -/
def readLines (s : State) (asid : BitVec 16) (user : Bool) : Nat → Word → Nat → List Byte → Except (Nat × Word) (List Byte) × State
  | 0, _, _, acc => (.ok acc, s)
  | k + 1, g, n, acc =>
    if n = 0 then (.ok acc, s)
    else
      let m := min n (64 - g.toNat % 64)
      if isRemote (s.norm g) || !fieldsOk g then (.error (8, g), s)
      else match xlate s g asid user false false none with
        | (.error c, s) => (.error (c, g), s)
        | (.ok (leaf, pa), s) =>
          (match memOp s leaf pa (.read 0 m false) with
           | (.data d, s) => readLines s asid user k (g + .ofNat 64 m) (n - m) (acc ++ d)
           | (_, s) => (.error (0x17, g), s))

/-- A fill over a link: the seal of its version has SYSTEM scope (R201). -/
def linkFill (s : State) (r : Ref) (off : Nat) (d : List (Option Byte)) : Option Nat × State :=
  match fillVer (onVer s r fun e => { e with system := true }) r off d with
  | (some c, _) => (some c, s)
  | x => x

/-- A fill in parts of 64 bytes, up to the one that draws a cause (R352). -/
def fillFlits (s : State) (r : Ref) : Nat → Nat → List (Option Byte) → Option Nat × State
  | 0, _, _ => (none, s)
  | k + 1, off, d =>
    if d.isEmpty then (none, s)
    else match linkFill s r off (d.take 64) with
      | (some c, s) => (some c, s)
      | (none, s) => fillFlits s r k (off + 64) (d.drop 64)

/-- A version is being filled. -/
def stillFills (s : State) (r : Ref) : Bool := match findVer s r with | some e => e.state == .filling | none => false

/-- A transfer into a version here is on its way; once its last flit has arrived, until the version is final, its answer may
still be lost (R352, R358). -/
def trackIncoming (s : State) (node tag : Nat) (r : Ref) (last : Bool) : State :=
  let rest := s.incoming.filter fun x =>
    !(x.1 == node && x.2.1 == tag && x.2.2.1 == r) && (!x.2.2.2 || stillFills s x.2.2.1)
  { s with incoming := (node, tag, r, last) :: rest }

/-- The versions that a broken transfer was filling become POISONED (R352, R358). Where a port is lost (`lost`), a transfer whose
last flit has arrived is broken if its sender has not had its answer, which is free (log 32, DEDUCED). -/
def poisonIncoming (s : State) (lost : Bool) (hit : Nat → Nat → Bool) : State :=
  let gone := s.incoming.filter fun x => hit x.1 x.2.1
  let s := { s with
    incoming := s.incoming.filter fun x => !hit x.1 x.2.1
    failedIn := s.failedIn.filter fun x => !hit x.1 x.2 }
  gone.foldl (fun s x =>
    if lost && x.2.2.2 then
      let (broken, s) := s.drawBit
      if broken then poisonName s (.glob x.2.2.1) else s
    else poisonName s (.glob x.2.2.1)) s

/-- A WRITE for an ASID has failed: FAIL goes back, and the flits of its transfer that follow are not performed (R352). -/
def failWrite (s : State) (node tag : Nat) (asid : BitVec 16) (last : Bool) (cause : Nat) (tval : Word) : State :=
  let s := sendFlit s (.fail node tag asid cause tval)
  if last then s else { s with failedIn := (node, tag) :: s.failedIn }

/-- The answer to a WRITE into version `r`: ACK, or FAIL with the transfer's destination POISONED (R352). -/
def answerFill (node tag : Nat) (last : Bool) (dest : Option Ref) (r : Ref) (x : Option Nat × State) : State :=
  match x with
  | (none, s) => sendFlit s (.ack node tag r.asid none)
  | (some c, s) =>
    failWrite (match dest with | some d => poisonName s (.glob d) | none => s) node tag r.asid last c (refBits r)

/-- FP32 bytes of contribution elements (R355). -/
def contribBytes (fmt : Nat) (d : List Byte) : List Byte :=
  let vals : List Ex :=
    match fmt with
    | 0 => exElems bf16 d
    | 1 => exElems f32 d
    | k =>
      let f := kilnFmt (k + 1)
      let n := d.length - 1
      let scale := (d.getD n 0).toNat
      if k == 2 then (d.take n).flatMap fun b => [mxVal f scale (b.toNat % 16), mxVal f scale (b.toNat / 16)]
      else (d.take n).map fun b => mxVal f scale b.toNat
  vals.flatMap fun v => leBytes (rndCode f32 0 v) 4

/-- The fold of a staging version has been asked for (R356). -/
def foldAsked (s : State) (result : Ref) (staging : BitVec 32) : Bool :=
  let hit (w : Waiter) : Bool := foldWatch result staging w.who
  (s.slices.any fun k => (k.2.vers.any fun e => e.waiters.any hit) || k.2.tiles.any fun e => e.waiters.any hit) ||
  s.due.any fun p => match p with | .watchRetry _ w _ _ => foldWatch result staging w | _ => false

/-- The fold unit watches the staging version and the base (R356), once, while the result can be filled. A staging version that is
ABSENT or POISONED makes the result POISONED, which is counted. -/
def watchFold (s : State) (result : Ref) (staging : BitVec 32) (nr : Nat) : State :=
  let stage := foldStage result staging
  if foldAsked s result staging || foldDue s result staging || (destCause s (.glob result)).isSome then s
  else if (findVer s stage).isNone then (poisonName s (.glob result)).count 4
  else
    let s := watchVer s stage (.fold result staging nr) 64
    if foldDue s result staging then s else watchVer s (foldBase result) (.fold result staging nr) 64

/-- A contribution (R355): the first of a staging version starts the watch of the fold unit (R356). -/
def contribute (s : State) (node tag : Nat) (last : Bool) (result : Ref) (staging : BitVec 32) (rank nr off fmt : Nat)
    (d : List Byte) : State :=
  match findVer s result with
  | none => failWrite s node tag result.asid last 0xA (refBits result)
  | some e =>
    let stage := foldStage result staging
    answerFill node tag last (some result) stage
      (fillFlits (watchFold s result staging nr) stage 64 (rank * e.size + 4 * off) ((contribBytes fmt d).map some))

/-- What a WRITE does at its homes (R351, R354, R355). A POISONED version discards what is written to it (R236). -/
def writeFlitHere (node tag : Nat) (dest : WDest) (user : Bool) (d : List (Option Byte)) (last : Bool) (s : State) : State :=
  match dest with
  | .addr asid g =>
    (match writeLines s asid user (lineCount g.toNat d.length) g d with
     | (none, s) => sendFlit s (.ack node tag asid none)
     | (some (c, g), s) => failWrite s node tag asid last c g)
  | .fill r off fmt =>
    let s := trackIncoming s node tag r last
    let bad : Bool := match fmt, findVer s r with | some f, some e => e.fmt != f && e.state != .poisoned | _, _ => false
    answerFill node tag last (some r) r (if bad then (some 0xB, s) else fillFlits s r 64 off d)
  | .guardWord r off =>
    let s := { s with incoming := s.incoming.map fun x => if x.1 == node && x.2.1 == tag then (x.1, x.2.1, x.2.2.1, true) else x }
    answerFill node tag last none r (fillFlits s r 64 off d)
  | .contrib result staging rank nr off fmt =>
    contribute (trackIncoming s node tag result last) node tag last result staging rank nr off fmt
      (d.map fun b => b.getD 0)

/-- WRITE (R351): of a transfer that has failed, no later flit is performed (R352). -/
def writeFlitStep (node tag : Nat) (dest : WDest) (user : Bool) (d : List (Option Byte)) (last : Bool) (s : State) : State :=
  if s.failedIn.contains (node, tag) then
    (if last then { s with failedIn := s.failedIn.filter (· != (node, tag)) } else s)
  else writeFlitHere node tag dest user d last s

/-- READ (R344, R351). -/
def readFlitStep (node tag : Nat) (what : RSrc) (n : Nat) (s : State) : State :=
  match what with
  | .addr asid user g =>
    (match readLines s asid user (lineCount g.toNat n) g n [] with
     | (.ok d, s) => answerRead s node tag asid d
     | (.error (c, g), s) => sendFlit s (.fail node tag asid c g))
  | .tile r off => watchVer s r (.peer node tag off n) 64

/-- ACCESS (R344). -/
def accessFlitStep (node tag : Nat) (acc : RemoteAcc) (s : State) : State :=
  if isRemote (s.norm acc.g) || !fieldsOk acc.g then sendFlit s (.fail node tag acc.asid 8 acc.g)
  else match acc.op with
  | .clean len => sendFlit (cleanGlobal s acc.asid acc.g len) (.ack node tag acc.asid none)
  | _ => sendAccess s { orig := .peer node tag, g := acc.g, asid := acc.asid, user := acc.user, core := none, op := acc.op }

/-! ## Answers to what this device sent -/

/-- A remote LD.last has its data: its discard leaves at the commit (R215). -/
def farLast (s : State) (src : Src) (g : Word) : State :=
  if majorOf (wordOf s src) == 0x60 && wf (wordOf s src) 12 3 == 3 then
    let s := arrive s src.core src.strand src.lsid
    s.hold src.core src.strand (s.entry src.core src.strand src.lsid src.idx (.discard g) 0 [])
  else s

/-- Where an answer from another device comes from (R22). -/
def farHome (m : MemReq) : Option Nat := some (512 + nodeOf m.g)

/-- A remote access of this device has its data. -/
def memData (s : State) (m : MemReq) (d : List Byte) : State :=
  match m.orig, m.op with
  | .load src, .read off _ _ =>
    if s.current src then (farLast s src m.g).emit (.resultReturn (farHome m) src (.bytes off d)) else s
  | _, _ => s

/-- A remote store, atomic or probe of this device is answered (R344). -/
def memAck (s : State) (m : MemReq) (result : Option (BitVec 64)) : State :=
  match m.orig, m.op with
  | .held src off, _ => if s.current src then passHeld s src off 0 none else s
  | .atomicProbe src, _ =>
    if s.current src then s.onBlock src.core src.strand fun b => { b with atomic := b.atomic.map fun a => { a with probed := true } }
    else s
  | .sb c seq ret, op =>
    let s := match ret, op, result with
      | some src, .amo _ wide _, some x =>
        s.emit (.resultReturn (farHome m) src (.tok (amoTok wide (leBytes x.toNat (amoBytes wide)))))
      | some src, .amo _ wide _, none => s.emit (.resultReturn (farHome m) src (.tok (nullTok (if wide then 0 else 1))))
      | _, _, _ => s
    sbPart s c seq m
  | .load src, .read off z _ =>
    (match result with
     | some x => if s.current src then (farLast s src m.g).emit (.resultReturn (farHome m) src (.bytes off (leBytes x.toNat z))) else s
     | none => s)
  | _, _ => s

/-- A remote access of this device has failed at the peer (R344). The fault of a returning atomic that had issued is one past
the irrevocable point (R53). -/
def memFail (s : State) (m : MemReq) (cause : Nat) (tval : Word) : State :=
  let hit (s : State) (src : Src) : State :=
    if s.current src then raise s src.core src.strand cause tval (some src.lsid) else s
  match m.orig with
  | .load src => failPart s src (cause, tval)
  | .held src _ => hit s src
  | .atomicProbe src => hit s src
  | .sb c seq (some src) =>
    let s := hit s src
    sbPart (if s.current src then s.onBlock src.core src.strand fun b =>
      { b with outst := b.outst.filter fun o => o.idx != src.idx } else s) c seq m
  | .sb c seq none => sbPart s c seq m
  | _ => s

/-- ENGINE_FAULT for a cause of a translation or an error at a peer (R329, R352). -/
def peerFault (cause : Nat) (tval : Word) : Nat × Word :=
  if cause == 7 || cause == 8 || cause == 0x17 then (0x11, .ofNat 64 (tval.toNat / 64 * 64 + xlateCode cause)) else (cause, tval)

/-- RDATA (R351): the last flit of a transfer ends it. -/
def rdataFlitStep (node tag : Nat) (d : List Byte) (last : Bool) (s : State) : State :=
  let done (s : State) : State := if last then freeTag s tag else s
  match s.tags.find? fun x => x.1 == tag with
  | none => s
  | some (_, use) =>
    match use with
    | .mem m => memData (freeTag s tag) m d
    | .link p id => onCmd s 2 p id fun c => { c with buf := c.buf ++ d, unacked := if last then c.unacked - 1 else c.unacked }
    | .engine e id part =>
      onCmd (freeTag s tag) 0 e id fun c => { c with got := aput c.got part d, unacked := c.unacked - 1 }
    | .fetch kind u id rin =>
      onCmd (done s) kind u id fun c =>
        if rin then { c with rbuf := c.rbuf ++ d, rfetched := last }
        else { c with buf := c.buf ++ d, fetched := last, unacked := if kind == 1 && last then 0 else c.unacked }
    | .tld src z => (freeTag s tag).emit (.resultReturn (some (512 + node)) src (.tok (readTok z d)))
    | .fork r source n got =>
      if last then forkFill (freeTag s tag) r source (got ++ d)
      else { s with tags := aput s.tags tag (.fork r source n (got ++ d)) }
    | .guard owner got =>
      if last then (freeTag s tag).emit (.guardResult owner (guardSet (got ++ d).length (got ++ d)))
      else { s with tags := aput s.tags tag (.guard owner (got ++ d)) }
    | .htab c => htabAnswer (freeTag s tag) c (some d)
    | .record asid => { freeTag s tag with records := aput s.records asid.toNat (some d) }.emit (.launchAccept asid)

/-- ACK (R344). -/
def ackFlitStep (tag : Nat) (result : Option (BitVec 64)) (s : State) : State :=
  match s.tags.find? fun x => x.1 == tag with
  | none => s
  | some (_, use) =>
    match use with
    | .mem m => memAck (freeTag s tag) m result
    | .link p id =>
      let own := match findCmd s 2 p id with | some c => c.tag == tag | none => false
      onCmd (if own then s else freeTag s tag) 2 p id fun c => { c with unacked := c.unacked - 1 }
    | .engine e id _ => onCmd (freeTag s tag) 0 e id fun c => { c with unacked := c.unacked - 1 }
    | _ => s

/-- FAIL (R344, R352): for a transfer of a peer that has stopped, its version here becomes POISONED. -/
def failFlitStep (node tag cause : Nat) (tval : Word) (s : State) : State :=
  let (k, v) := peerFault cause tval
  match s.tags.find? fun x => x.1 == tag with
  | none => poisonIncoming s false fun n t => n == node && t == tag
  | some (_, use) =>
    match use with
    | .mem m => memFail (freeTag s tag) m cause tval
    | .link p id => failCmd s 2 p id k v
    | .engine e id _ => failCmd (freeTag s tag) 0 e id k v
    | .fetch kind u id _ => failCmd (freeTag s tag) kind u id k v
    | .tld src _ => (freeTag s tag).emit (.resultReturn (some (512 + node)) src (.cause cause tval))
    | .fork r source _ _ => forkPoison (freeTag s tag) r source
    | .guard owner _ => (freeTag s tag).emit (.guardResult owner true)
    | .htab c => htabAnswer (freeTag s tag) c none
    | .record asid => { freeTag s tag with records := aput s.records asid.toNat none }.emit (.launchAccept asid)

/-- NOTICE (R242). -/
def noticeFlitStep (node : Nat) (r : Ref) (a : Answer) (fmt : BitVec 4) (size : Nat) (time : BitVec 40) (s : State) : State :=
  match findVer s r with
  | none => s
  | some e =>
    if !e.proxy || e.node != node || e.state != .filling then s
    else match a with
      | .readable =>
        settleRef (answerAll (onVer s r fun e => { e with state := .sealed_, size := size, fmt := fmt, sealTime := time }) r) r
      | .poisoned => poisonVer s r
      | .absent =>
        let s := s.onSlice (homeRef r) fun k => { k with vers := k.vers.filter fun x => !x.named r }
        let s := e.waiters.foldl (fun s w => answer s r none .absent w.who) s
        settleRef s r

/-- DEC (R242). -/
def decFlitStep (r : Ref) (s : State) : State := (dropRef s r).2

/-- FOLD (R356). -/
def foldStep (result : Ref) (staging : BitVec 32) (nr held : Nat) (s : State) : State :=
  let stage := foldStage result staging
  let base := foldBase result
  let drop (s : State) (r : Ref) : State := (dropRef s r).2
  let release (s : State) : State :=
    let s := if 1 ≤ held then drop s stage else s
    if 2 ≤ held then drop s base else s
  let bad (s : State) : State := release ((poisonName s (.glob result)).count 4)
  match findVer s stage, findVer s base, findVer s result with
  | some g, some b, some d =>
    let n := d.size
    let fits : Bool := ansOf g == .readable && ansOf b == .readable && g.size == nr * n && b.size == n && b.fmt == 2 && d.fmt == 2 &&
      !(ownerOf s g).proxy && !(ownerOf s b).proxy
    if held != 2 || !fits then bad s
    else
      let num (l : List Byte) (i : Nat) : Ex := decodeF f32 (leNat ((l.drop (4 * i)).take 4))
      let bb := verBytes s b 0 n
      let gb := verBytes s g 0 (nr * n)
      let out := (List.range (n / 4)).flatMap fun j =>
        leBytes (rndCode f32 0 ((List.range nr).foldl
          (fun acc r => rnd f32 0 (exAdd false acc (num (gb.drop (r * n)) j))) (num bb j))) 4
      match fillVer s result 0 (out.map some) with
      | (none, s) => release s
      | (some _, s) => bad s
  | _, _, _ => bad s

/-! ## Ports and joints (R341, R342) -/

/-- Held flits whose node is reachable now leave (R345). -/
def releaseFlits (s : State) : State :=
  let go := s.heldFlits.filter fun f => (s.portTo (flitNode f)).isSome
  { s with heldFlits := s.heldFlits.filter fun f => (s.portTo (flitNode f)).isNone, sent := s.sent ++ go }

/-- PORT_TRAINED (R342). -/
def portTrainedStep (p : Nat) (s : State) : State := releaseFlits (s.onPort p fun x => { x with st := .up, lanes := 0 })

/-- Nodes that a port reaches. -/
def State.reaches (s : State) (p node : Nat) : Bool := aget s.routes node 15 == p

/-- PORT_DOWN (R342, R352, R358): its commands fail, and versions that a peer was filling over it become POISONED. -/
def portDownStep (p : Nat) (s : State) : State :=
  let s := s.onPort p fun x => { x with st := .down }
  let s := (s.port p).cmds.foldl (fun s c => failCmd s 2 p c.id 0x11 (.ofNat 64 ((linkLane1 c).toNat / 64 * 64 + 4))) s
  poisonIncoming s true fun n _ => s.reaches p n

/-- LANE_FAILURE (R342). -/
def laneFailureStep (p n : Nat) (s : State) : State :=
  let s := s.onPort p fun x => { x with lanes := x.lanes + n }
  if 4 < (s.port p).lanes then portDownStep p s
  else s.onPort p fun x => { x with st := if x.st == .up && 0 < x.lanes then .degraded else x.st }

/-- UCIE_REPLAY (R341, R406). -/
def ucieReplayStep (_joint : Nat) (s : State) : State := s.count 7
/-- A failure of boot or of a joint: FAIL and CODE, MSI-X vector 0, and every core halts (R416). -/
def moduleFail (s : State) (code : Nat) : State :=
  { s with halted := true, dev := { s.dev with fail := true, code := code }, out := s.out ++ [.msix 0] }
/-- UCIE_RETRAIN_FAILURE (R341): the module stops, and the host reads FAIL. -/
def ucieRetrainFailureStep (joint : Nat) (s : State) : State :=
  moduleFail { s with joints := s.joints &&& ~~~(BitVec.ofNat 4 (2^joint)) } 7

/-- WRITE (R351). -/
def execWriteFlit (s : State) : Out :=
  .next (match s.packet with | .writeFlit n t w u d l => writeFlitStep n t w u d l s | _ => s)
/-- READ (R351). -/
def execReadFlit (s : State) : Out := .next (match s.packet with | .readFlit n t w k => readFlitStep n t w k s | _ => s)
/-- RDATA (R351). -/
def execRdataFlit (s : State) : Out := .next (match s.packet with | .rdataFlit n t d l => rdataFlitStep n t d l s | _ => s)
/-- ACCESS (R344). -/
def execAccessFlit (s : State) : Out := .next (match s.packet with | .accessFlit n t a => accessFlitStep n t a s | _ => s)
/-- ACK (R344). -/
def execAckFlit (s : State) : Out := .next (match s.packet with | .ackFlit _ t r => ackFlitStep t r s | _ => s)
/-- FAIL (R344). -/
def execFailFlit (s : State) : Out := .next (match s.packet with | .failFlit n t c v => failFlitStep n t c v s | _ => s)
/-- NOTICE (R242). -/
def execNoticeFlit (s : State) : Out :=
  .next (match s.packet with | .noticeFlit n r a f z t => noticeFlitStep n r a f z t s | _ => s)
/-- DEC (R242). -/
def execDecFlit (s : State) : Out := .next (match s.packet with | .decFlit _ r => decFlitStep r s | _ => s)
/-- CREDIT (R343): credits only delay flits, and ingress never drops one. -/
def execCreditFlit (s : State) : Out := .next s
/-- A flit of an unlisted TYPE is discarded and counted (R343, R406). -/
def execUnlistedTypeFlit (s : State) : Out := .next (s.count 6)
/-- A flit that fails its CRC is replayed in order (R343): nothing is lost or changed. -/
def execFlitCrcReplay (s : State) : Out := .next s
/-- FOLD (R356). -/
def execFold (s : State) : Out := .next (match s.packet with | .fold r g n h => foldStep r g n h s | _ => s)
/-- PORT_TRAINED (R342). -/
def execPortTrained (s : State) : Out := .next (match s.packet with | .portTrained p => portTrainedStep p s | _ => s)
/-- LANE_FAILURE (R342). -/
def execLaneFailure (s : State) : Out := .next (match s.packet with | .laneFailure p n => laneFailureStep p n s | _ => s)
/-- PORT_DOWN (R342). -/
def execPortDown (s : State) : Out := .next (match s.packet with | .portDown p => portDownStep p s | _ => s)
/-- UCIE_REPLAY (R341). -/
def execUcieReplay (s : State) : Out := .next (match s.packet with | .ucieReplay j => ucieReplayStep j s | _ => s)
/-- UCIE_RETRAIN_FAILURE (R341). -/
def execUcieRetrainFailure (s : State) : Out :=
  .next (match s.packet with | .ucieRetrainFailure j => ucieRetrainFailureStep j s | _ => s)

end Sys2Proof.Machine
end

