-- ==== Sys2Proof/Machine/Larder.lean ====
section
/-! DEFINITION. The Larder (chapter 14): its forms, the events of its entries, moves of contexts, and the step builder. -/

namespace Sys2Proof.Machine

/-! ## States and handles (R277, R278) -/

def stFree : Nat := 0
def stWaiting : Nat := 1
def stPrefill : Nat := 2
def stDecode : Nat := 3
def stPaused : Nat := 4
def stEvicting : Nat := 5
def stSwapped : Nat := 6
def stRestoring : Nat := 7

/-- Number of a handle's entry: die × 4096 + index. -/
def handleEntry (h : Word) : Nat := bits h 14 2 * 4096 + bits h 0 12
/-- The handle of an entry. -/
def handleOf (k : Nat) (gen : BitVec 16) : Nat := k % 4096 + k / 4096 * 2^14 + gen.toNat * 2^16

/-- A handle is valid (R277). -/
def handleOk (s : State) (asid : BitVec 16) (h : Word) : Bool :=
  let e := s.lentry (handleEntry h)
  bits h 12 2 == 0 && bits h 32 32 == 0 && e.state != stFree && e.gen.toNat == bits h 16 16 && e.asid == asid

/-- The context of an entry, and its next input version. -/
def ctxOf (e : LEntry) (v : BitVec 32) : Ref := ⟨e.asid, e.ctn, v⟩
def inputOf (e : LEntry) : Ref := ⟨e.asid, e.itn, e.inext⟩

/-- An entry is refused an event (R282). -/
def refuseEntry (s : State) (k : Nat) : State := s.onLentry k fun e => { e with rej := min 255 (e.rej + 1) }

/-! ## Contexts (R287) -/

/-- THOLD and TPIN of a context, and whether its reference was taken: not where the home answers that it is absent or
poisoned, and not where its THOLD draws REFCOUNT (log 67, DEDUCED). -/
def holdCtx (s : State) (r : Ref) : Bool × State :=
  let bad : Bool := match findVer s r with | some e => e.state == .poisoned | none => false
  if bad then (false, s)
  else match holdRef s r with
    | (some _, s) => (false, s)
    | (none, s) =>
      let proxy : Bool := match findVer s r with | some e => e.proxy | none => false
      (true, moveToWays (if proxy then s else onVer s r fun e => { e with pinned := true }) r)

/-- TUNPIN and TREL of a context. -/
def dropCtx (s : State) (r : Ref) : State := (dropRef (onVer s r fun e => { e with pinned := false }) r).2

/-- The AUTO watch is cancelled. -/
def cancelWatch (s : State) (k : Nat) (e : LEntry) : State :=
  if !e.auto then s
  else
    let r := inputOf e
    let hit (w : WaitFor) : Bool := match w with | .larder j _ => j == k | _ => false
    dropWatch s r hit

/-- → FREE (R281). -/
def freeEntry (s : State) (k : Nat) : State :=
  let e := s.lentry k
  let s := cancelWatch s k e
  let s := if e.cver == 0 then s else dropCtx s (ctxOf e e.cver)
  s.onLentry k fun e => { LEntry.reset with gen := e.gen }

/-! ## Moves (R288) -/

/-- Moves of a die that have started. -/
def movesRunning (s : State) (die : Nat) : Nat :=
  (s.larder.filter fun x => x.1 / 4096 == die && (match x.2.moving with | some (_, some _) => true | _ => false)).length

/-- The move of a die that starts next: evictions first, each kind in the order of its events. -/
def nextMove (s : State) (die : Nat) : Option Nat :=
  let queued := s.larder.filterMap fun x =>
    match x.2.moving with
    | some (o, none) => if x.1 / 4096 == die then some ((if x.2.state == stEvicting then 0 else 1), o, x.1) else none
    | _ => none
  (queued.foldl (fun best x => match best with
    | none => some x
    | some b => if x.1 < b.1 || (x.1 == b.1 && x.2.1 < b.2.1) then some x else some b) none).map fun x => x.2.2

/-- A move starts: an eviction unpins its context, a restore pins it and moves it as room allows. -/
def startMove (s : State) (k : Nat) : State :=
  let e := s.lentry k
  let s := s.onLentry k fun e => { e with moving := e.moving.map fun m => (m.1, some s.timebase.toNat) }
  let r := ctxOf e e.cver
  if e.cver == 0 then s
  else if e.state == stEvicting then onVer s r fun v => { v with pinned := false }
  else
    match findVer s r with
    | some v => if v.proxy then s else moveToWays (onVer s r fun v => { v with pinned := true }) r
    | none => s

/-- Moves start while fewer than 8 of the die are under way. -/
def startMoves (s : State) (die : Nat) : Nat → State
  | 0 => s
  | n + 1 =>
    if 8 ≤ movesRunning s die then s
    else match nextMove s die with
      | some k => startMoves (startMove s k) die n
      | none => s

/-- Where a stream without a context ends when it goes to EVICTING or RESTORING: either move completes at once. -/
def movedState (e : LEntry) (st : Nat) : Nat :=
  if e.icon.toNat < e.inext.toNat then stPrefill else if st == stEvicting then stSwapped else stWaiting

/-- An entry goes to EVICTING or RESTORING, and its move is queued; that of a stream with CVER = 0 completes at once. -/
def queueMove (s : State) (k st : Nat) : State :=
  if (s.lentry k).cver == 0 then s.onLentry k fun e => { e with state := movedState e st }
  else
    let id := s.nextId
    startMoves (s.fresh.onLentry k fun e => { e with state := st, moving := some (id, none) }) (k / 4096) 8

/-- The end of a move. -/
def endMove (s : State) (k : Nat) : State :=
  startMoves (s.onLentry k fun e => { e with moving := none }) (k / 4096) 8

/-! ## Events of an entry (R280, R281) -/

def sat24 (x : Nat) : Nat := min x (2^24 - 1)

/-- An arrival of `tokens` tokens. -/
def arrival (s : State) (k tokens : Nat) (fin : Bool) : State :=
  let s := s.onLentry k fun e => { e with
    inext := e.inext + 1
    ptok := sat24 (e.ptok + tokens)
    last := s.stamp
    eos := e.eos || fin }
  let e := s.lentry k
  if e.state == stWaiting then s.onLentry k fun e => { e with state := stPrefill }
  else if e.state == stSwapped then queueMove s k stRestoring
  else s

/-- AUTO_INPUT_SEAL (R280). -/
def autoInputSealStep (k gen : Nat) (a : Answer) (size : Nat) (fin : Bool) (s : State) : State :=
  let e := s.lentry k
  if e.state == stFree || e.gen.toNat != gen || !e.auto then s
  else
    let s := if a == .readable then arrival s k ((size + 2^e.tsh - 1) / 2^e.tsh) fin
      else
        let s := s.onLentry k fun e => { e with inext := e.inext + 1, err := true, last := s.stamp }
        if e.state == stWaiting || e.state == stPrefill || e.state == stDecode then
          s.onLentry k fun e => { e with rst := e.state, state := stPaused }
        else if e.state == stSwapped then queueMove s k stRestoring else s
    watchVer s (inputOf (s.lentry k)) (.larder k gen) 64

/-- SARR (R292). -/
def applySarr (s : State) (k tokens : Nat) (fin : Bool) : State :=
  if (s.lentry k).auto then refuseEntry s k else arrival s k tokens fin

/-- An applied SSET is the stream's last activity (R293). -/
def active (s : State) (k : Nat) : State := s.onLentry k fun e => { e with last := s.stamp }

/-- SSET.ctx (R287). -/
def applyCtx (s : State) (k : Nat) (v : BitVec 32) : State :=
  let e := s.lentry k
  if v.toNat ≤ e.cver.toNat then refuseEntry s k
  else match holdCtx s (ctxOf e v) with
    | (false, s) => active (s.onLentry k fun e => { e with err := true }) k
    | (true, s) =>
      let s := s.onLentry k fun e => { e with cver := v }
      active (if e.cver == 0 then s else dropCtx s (ctxOf e e.cver)) k

/-- SSET (R281, R293): `op` as its MOD. -/
def applySset (s : State) (k op : Nat) (arg : Word) : State :=
  let e := s.lentry k
  let live := e.state == stWaiting || e.state == stPrefill || e.state == stDecode
  let moving := e.state == stEvicting || e.state == stRestoring
  let go (st : Nat) : State := active (s.onLentry k fun e => { e with state := st }) k
  match op with
  | 0 => if e.state == stPrefill then go stDecode else refuseEntry s k
  | 1 => if e.state == stDecode then go (if 0 < e.ptok then stPrefill else stWaiting) else refuseEntry s k
  | 2 => if moving then active (s.onLentry k fun e => { e with finp := true }) k else freeEntry s k
  | 3 => if live then active (s.onLentry k fun e => { e with rst := e.state, state := stPaused }) k else refuseEntry s k
  | 4 =>
    if e.state == stPaused then go (if e.rst == stWaiting && 0 < e.ptok then stPrefill else e.rst)
    else if e.state == stSwapped then active (queueMove s k stRestoring) k
    else refuseEntry s k
  | 5 => if live || e.state == stPaused then applyCtx s k (.ofNat 32 (bits arg 0 32)) else refuseEntry s k
  | 6 =>
    if bits arg 3 5 != 0 || bits arg 17 47 != 0 then refuseEntry s k
    else active (s.onLentry k fun e => { e with prio := bits arg 0 3, dtok := bits arg 8 8, pin := arg.getLsbD 16 }) k
  | _ => active s k

/-- The silence timeout's condition (R280). -/
def silent (s : State) (e : LEntry) : Bool :=
  s.ldcfg.getLsbD 13 && !e.pin && e.tout != 0 && (e.state == stWaiting || e.state == stPaused) &&
    e.tout.toNat * 1000 ≤ (s.stamp - e.last).toNat

/-- SILENCE_TIMEOUT (R280, R281). -/
def silenceTimeoutStep (k : Nat) (s : State) : State :=
  queueMove (s.onLentry k fun e => { e with rst := stWaiting }) k stEvicting

/-- EVICTION_COMPLETE (R281, R288). -/
def evictionCompleteStep (k : Nat) (s : State) : State :=
  let e := s.lentry k
  let s := if e.cver == 0 then s else
    match findVer s (ctxOf e e.cver) with
    | some v => if v.proxy || v.state == .aliased then s
        else pullPinned (moveToPool s (ctxOf e e.cver)) (homeRef (ctxOf e e.cver))
    | none => s
  let s := endMove s k
  if e.finp then freeEntry s k
  else if e.icon.toNat < e.inext.toNat then queueMove s k stRestoring
  else s.onLentry k fun e => { e with state := stSwapped }

/-- The end of a restore, with the context in tile ways or left pinned in HBM (R281, R288). -/
def restoreEnd (s : State) (k : Nat) : State :=
  let e := s.lentry k
  let s := endMove s k
  if e.finp then freeEntry s k
  else s.onLentry k fun e => { e with state := if e.icon.toNat < e.inext.toNat then stPrefill else stWaiting }

/-- The context of a restore is in tile ways, or there is none. -/
def restored (s : State) (k : Nat) : Bool :=
  let e := s.lentry k
  e.cver == 0 || match findVer s (ctxOf e e.cver) with | some v => !v.hbm | none => true

/-! ## Reservations (R291) -/

/-- Free entries of a die. -/
def freeCount (s : State) (die : Nat) : Nat :=
  4096 - (s.larder.filter fun x => x.1 / 4096 == die && (x.2.state != stFree || x.2.rsv.isSome)).length

/-- The die with most free entries, the lowest on ties. -/
def freestDie (s : State) : Nat :=
  (List.range 4).foldl (fun best d => if freeCount s best < freeCount s d then d else best) 0

/-- GEN after a reservation: it skips 0 (R277). -/
def nextGen (g : BitVec 16) : BitVec 16 := if g + 1 == 0 then 1 else g + 1

/-- The bits of a descriptor and placement that must be zero are, and INEXT is not 0. -/
def snewOk (d : Vec) (place : Word) : Bool :=
  let t : Token := ⟨d, 0⟩
  d.toNat / 2^256 == 0 &&
  bits (v64 t 0) 37 3 == 0 && bits (v64 t 0) 44 4 == 0 && bits (v64 t 0) 56 8 == 0 && bits (v64 t 3) 32 32 == 0 &&
    bits place 3 61 == 0 && bits (v64 t 2) 32 32 != 0

/-- SNEW at the Larder: status, handle, and the reservation. Which free entry is taken is free. -/
def applySnew (s : State) (src : Src) (d : Vec) (place : Word) : State :=
  let die := if place.getLsbD 2 then freestDie s else bits place 0 2
  let back (s : State) (handle status : Nat) : State := s.emit (.resultReturn (some (300 + die)) src (.tok (dTok (handle + status * 2^32))))
  if !s.ldcfg.getLsbD 0 then back s 0 2
  else if !snewOk d place then back s 0 3
  else
    let free := (List.range 4096).filter fun i =>
      (s.lentry (die * 4096 + i)).state == stFree && (s.lentry (die * 4096 + i)).rsv.isNone
    if free.isEmpty then back s 0 1
    else
      let (n, s) := s.drawBelow free.length
      let k := die * 4096 + free.getD n 0
      let gen := nextGen (s.lentry k).gen
      let live := s.current src
      let s := s.onLentry k fun e => { e with gen := gen, rsv := if live then some src else none }
      let s := if live then s.onBlock src.core src.strand fun b => { b with snews := b.snews ++ [(src.lsid, k, d)] } else s
      back s (handleOf k gen) 0

/-- The issuing block has committed and what its strand did before has been performed: the reservation is confirmed (R291,
R287; R202, log 67, DEDUCED). -/
def confirmSnew (s : State) (asid : BitVec 16) (k : Nat) (d : Vec) : State :=
  let t : Token := ⟨d, 0⟩
  let l0 := v64 t 0
  let s := s.onLentry k fun e => { LEntry.reset with
    gen := e.gen
    asid := asid
    state := stWaiting
    prio := bits l0 32 3
    pin := l0.getLsbD 35
    auto := l0.getLsbD 36
    tsh := bits l0 40 4
    dtok := bits l0 48 8
    skey := .ofNat 32 (bits l0 0 32)
    ctn := .ofNat 32 (bits (v64 t 1) 0 32)
    cver := .ofNat 32 (bits (v64 t 1) 32 32)
    itn := .ofNat 32 (bits (v64 t 2) 0 32)
    inext := .ofNat 32 (bits (v64 t 2) 32 32)
    icon := .ofNat 32 (bits (v64 t 2) 32 32)
    tout := .ofNat 32 (bits (v64 t 3) 0 32)
    last := s.stamp }
  let e := s.lentry k
  let s := if e.cver == 0 then s
    else match holdCtx s (ctxOf e e.cver) with
      | (true, s) => s
      | (false, s) => s.onLentry k fun e => { e with cver := 0, err := true }
  if e.auto then watchVer s (inputOf e) (.larder k e.gen.toNat) 64 else s

/-! ## Queries (R294) -/

/-- The 48 bytes of an entry (R278). -/
def entryBytes (e : LEntry) : List Byte :=
  let b (x : Bool) (i : Nat) : Nat := if x then 2^i else 0
  let d0 := e.asid.toNat + 2^16 * e.state + 2^19 * e.rst + 2^22 * e.prio + b e.pin 25 + b e.auto 26 + b e.eos 27 + b e.err 28 +
    b e.finp 29 + b e.rsv.isSome 30 + 2^32 * e.gen.toNat + 2^48 * e.dtok + 2^56 * e.tsh
  let d1 := e.skey.toNat + 2^32 * e.tout.toNat
  let d2 := e.ctn.toNat + 2^32 * e.cver.toNat
  let d3 := e.itn.toNat + 2^32 * e.inext.toNat
  let d4 := e.icon.toNat + 2^32 * e.ptok + 2^56 * e.rej
  let d5 := e.pgr + 2^24 * e.last.toNat
  [d0, d1, d2, d3, d4, d5].flatMap fun x => leBytes x 8

def sqryTok (s : State) (asid : BitVec 16) (h : Word) : Token :=
  if handleOk s asid h then bytesTok (entryBytes (s.lentry (handleEntry h))) else bytesTok (leBytes (bits h 0 32) 4)

/-! ## LARDER_REQUEST (R290) -/

/-- A request reaches the Larder: what it does, or a report where its handle is not valid (R282). A held request has then
been performed, and leaves the store buffer (R252). -/
def larderRequestStep (q : LReq) (src : Src) (asid : BitVec 16) (blk : Word) (launch : Option (BitVec 16 × BitVec 32))
    (seq : Option Nat) (s : State) : State :=
  let s := match seq with | some n => sbDone s src.core n | none => s
  let bad (h : Word) : State := report s src.core src.strand launch (reportRec 8 h blk src.lsid)
  match q with
  | .sarr h n fin => cmdEnded (if handleOk s asid h then applySarr s (handleEntry h) n fin else bad h) launch
  | .sset op h arg => cmdEnded (if handleOk s asid h then applySset s (handleEntry h) op arg else bad h) launch
  | .snew d place => applySnew s src d place
  | .confirm k d => cmdEnded (confirmSnew s asid k d) launch
  | .sqry h => s.emit (.resultReturn (some (300 + bits h 14 2)) src (.tok (sqryTok s asid h)))
  | .sbld budget btn =>
    { s with builds := s.builds ++ [{ asid := asid, budget := budget, btn := btn, who := some (src, blk, launch), start := none
                                      ver := 0, plans := [], bytes := [], decodes := 0, tokens := 0 }] }

/-! ## The step builder (R283-R286) -/

/-- Order of the walk: by descending PRIO, then ascending LAST, then ascending die and index. -/
def walkBefore (x y : Nat × LEntry) : Bool :=
  if x.2.prio != y.2.prio then y.2.prio < x.2.prio
  else if x.2.last != y.2.last then x.2.last.toNat < y.2.last.toNat
  else x.1 < y.1

def insertWalk (x : Nat × LEntry) : List (Nat × LEntry) → List (Nat × LEntry)
  | [] => [x]
  | y :: ys => if walkBefore x y then x :: y :: ys else y :: insertWalk x ys

/-- The ordered entries of an ASID (R284, steps 1 and 2). -/
def walkOrder (s : State) (asid : BitVec 16) : List (Nat × LEntry) :=
  let mine := s.larder.filter fun x => x.2.asid == asid
  let sort (l : List (Nat × LEntry)) : List (Nat × LEntry) := l.foldr insertWalk []
  sort (mine.filter fun x => x.2.state == stDecode) ++
    sort (mine.filter fun x => x.2.state == stPrefill && x.2.icon.toNat < x.2.inext.toNat)

/-- The walk (R284, step 3). -/
def walkPlans : List (Nat × LEntry) → Nat → Nat → List Plan
  | [], _, _ => []
  | (k, e) :: rest, left, n =>
    if 1024 ≤ n || left = 0 then []
    else
      let g := min (if e.state == stDecode then max e.dtok 1 else e.ptok) left
      ⟨k, e, g⟩ :: walkPlans rest (left - g) (n + 1)

/-- Change the build in progress. -/
def onBuild (s : State) (f : Build → Build) : State := { s with builds := onNth f s.builds 0 }

/-- The build in progress ends. -/
def endBuild (s : State) (b : Build) : State :=
  let s := { s with builds := s.builds.drop 1 }
  match b.who with
  | some (_, _, launch) => cmdEnded s launch
  | none => s

/-- STEP_BUILD (R283, R284): the oldest request takes its snapshot, walks it and creates the batch version. -/
def stepBuildStep (s : State) : State :=
  match s.builds with
  | [] => s
  | b :: _ =>
    let plans := walkPlans (walkOrder s b.asid) b.budget 0
    let ver : BitVec 32 := .ofNat 32 (hwmOf s b.asid b.btn + 1)
    let size := 64 + 32 * plans.length
    let r : Ref := ⟨b.asid, b.btn, ver⟩
    match createVer s r { size := size, pend := size, refs := bits (s.ldcfg.zeroExtend 64) 1 12, fmt := 0, pin := false
                          hbm := false, proxy := none, fork := none } with
    | .ok s => onBuild s fun b => { b with start := some s.timebase.toNat, ver := ver, plans := plans }
    | .error k =>
      let s := match b.who with
        | some (src, blk, launch) => report s src.core src.strand launch (reportRec k (refBits r) blk src.lsid)
        | none => s
      endBuild s b

/-- A batch entry (R285). -/
def batchEntry (p : Plan) : List Byte :=
  let e := p.snap
  let pre := e.state == stPrefill
  let part := pre && p.grant < e.ptok
  leBytes (handleOf p.entry e.gen) 4 ++ leBytes e.skey.toNat 4 ++ leBytes e.cver.toNat 4 ++
  leBytes (if pre then e.icon.toNat else 0) 4 ++ leBytes (if pre then e.inext.toNat - e.icon.toNat else 0) 2 ++
  leBytes p.grant 2 ++ leBytes (if pre then e.pgr else 0) 4 ++ leBytes (if pre then 1 else 0) 1 ++
  leBytes ((if part then 1 else 0) + (if e.eos then 2 else 0)) 1 ++ leBytes 0 6

/-- The next grant of the build in progress is applied as one action (R286). -/
def grantNext (s : State) : State :=
  match s.builds with
  | [] => s
  | b :: _ =>
    match b.plans with
    | [] => s
    | p :: ps =>
      let e := s.lentry p.entry
      let s := onBuild s fun b => { b with plans := ps }
      if e.state != p.snap.state || e.gen != p.snap.gen then s
      else
        let dec := p.snap.state == stDecode
        let whole := p.grant == p.snap.ptok
        let s := s.onLentry p.entry fun e =>
          if dec then { e with last := s.stamp }
          else if whole then { e with last := s.stamp, icon := p.snap.inext, ptok := e.ptok - p.grant, pgr := 0 }
          else { e with last := s.stamp, ptok := e.ptok - p.grant, pgr := sat24 (e.pgr + p.grant) }
        onBuild s fun b => { b with
          bytes := b.bytes ++ batchEntry p
          decodes := b.decodes + (if dec then 1 else 0)
          tokens := b.tokens + p.grant }

/-- BATCH_SEAL (R283, R285): header and entries are filled, and the version is sealed at its final size. -/
def batchSealStep (s : State) : State :=
  match s.builds with
  | [] => s
  | b :: _ =>
    let n := b.bytes.length / 32
    let head := leBytes n 4 ++ leBytes b.decodes 2 ++ leBytes (n - b.decodes) 2 ++ leBytes (b.start.getD 0) 8 ++
      leBytes b.tokens 4 ++ leBytes b.budget 4 ++ List.replicate 40 0
    let r : Ref := ⟨b.asid, b.btn, b.ver⟩
    let s := (fillVer s r 0 ((head ++ b.bytes).map some)).2
    let s := (sealReq s r false false (64 + 32 * n)).2
    endBuild s b

/-! ## The instructions (R289) -/

def snewStep (pr : BitVec 2) (lsid : BitVec 5) (t0 : BitVec 8) (s : State) : State :=
  fireAB s pr fun o s =>
    if anyNull o.a 0 32 || anyNull o.b 0 8 then send1 s t0 (nullTok 0)
    else
      let place := v64 o.b 0
      (outstHere s lsid.toNat 0 none).emit
        (.larderRequest (bits place 0 2) (.snew o.a.pay place) (s.src lsid) (s.core s.cur.1).asid 0 none none)

def sarrStep (pr : BitVec 2) (lsid : BitVec 5) (fin : BitVec 1) (s : State) : State :=
  fireA s pr fun o s =>
    if anyNull o.a 0 16 then arriveHere s lsid
    else holdHere s lsid (.larder (.sarr (v64 o.a 0) (bits (v64 o.a 1) 0 24) (fin == 1)))

/-- SSET: ops 5 and 6 read lane 1 (R293). -/
def ssetStep (op : Nat) (pr : BitVec 2) (lsid : BitVec 5) (s : State) : State :=
  fireA s pr fun o s =>
    if anyNull o.a 0 (if op == 5 || op == 6 then 16 else 8) then arriveHere s lsid
    else holdHere s lsid (.larder (.sset op (v64 o.a 0) (v64 o.a 1)))

def sqryStep (pr : BitVec 2) (lsid : BitVec 5) (t0 : BitVec 8) (s : State) : State :=
  fireA s pr fun o s =>
    if anyNull o.a 0 8 then send1 s t0 (nullTok 2)
    else (outstHere s lsid.toNat 0 none).emit
      (.larderRequest (bits (v64 o.a 0) 14 2) (.sqry (v64 o.a 0)) (s.src lsid) (s.core s.cur.1).asid 0 none none)

def sbldStep (pr : BitVec 2) (lsid : BitVec 5) (budget : BitVec 5) (arg : BitVec 32) (s : State) : State :=
  fire0 s pr fun _ s => holdHere s lsid (.larder (.sbld (256 * (budget.toNat + 1)) arg))

/-- SNEW (R291). -/
def execSnew (pr : BitVec 2) (lsid : BitVec 5) (t0 : BitVec 8) (_arg : BitVec 32) (s : State) : Out := .next (snewStep pr lsid t0 s)
/-- SARR (R292). -/
def execSarr (pr : BitVec 2) (lsid : BitVec 5) (fin : BitVec 1) (_arg : BitVec 32) (s : State) : Out := .next (sarrStep pr lsid fin s)
/-- SSET.pdone (R281). -/
def execSsetPdone (pr : BitVec 2) (lsid : BitVec 5) (_arg : BitVec 32) (s : State) : Out := .next (ssetStep 0 pr lsid s)
/-- SSET.idle (R281). -/
def execSsetIdle (pr : BitVec 2) (lsid : BitVec 5) (_arg : BitVec 32) (s : State) : Out := .next (ssetStep 1 pr lsid s)
/-- SSET.finish (R281). -/
def execSsetFinish (pr : BitVec 2) (lsid : BitVec 5) (_arg : BitVec 32) (s : State) : Out := .next (ssetStep 2 pr lsid s)
/-- SSET.pause (R281). -/
def execSsetPause (pr : BitVec 2) (lsid : BitVec 5) (_arg : BitVec 32) (s : State) : Out := .next (ssetStep 3 pr lsid s)
/-- SSET.resume (R281). -/
def execSsetResume (pr : BitVec 2) (lsid : BitVec 5) (_arg : BitVec 32) (s : State) : Out := .next (ssetStep 4 pr lsid s)
/-- SSET.ctx (R287). -/
def execSsetCtx (pr : BitVec 2) (lsid : BitVec 5) (_arg : BitVec 32) (s : State) : Out := .next (ssetStep 5 pr lsid s)
/-- SSET.attr (R293). -/
def execSsetAttr (pr : BitVec 2) (lsid : BitVec 5) (_arg : BitVec 32) (s : State) : Out := .next (ssetStep 6 pr lsid s)
/-- SSET.touch (R293). -/
def execSsetTouch (pr : BitVec 2) (lsid : BitVec 5) (_arg : BitVec 32) (s : State) : Out := .next (ssetStep 7 pr lsid s)
/-- SQRY (R294). -/
def execSqry (pr : BitVec 2) (lsid : BitVec 5) (t0 : BitVec 8) (_arg : BitVec 32) (s : State) : Out := .next (sqryStep pr lsid t0 s)
/-- SBLD (R295). -/
def execSbld (pr : BitVec 2) (lsid : BitVec 5) (budget : BitVec 5) (arg : BitVec 32) (s : State) : Out :=
  .next (sbldStep pr lsid budget arg s)

/-- AUTO_INPUT_SEAL (R280). -/
def execAutoInputSeal (s : State) : Out :=
  .next (match s.packet with | .autoInputSeal k g a z f => autoInputSealStep k g a z f s | _ => s)
/-- SILENCE_TIMEOUT (R280). -/
def execSilenceTimeout (s : State) : Out := .next (match s.packet with | .silenceTimeout k => silenceTimeoutStep k s | _ => s)
/-- EVICTION_COMPLETE (R288). -/
def execEvictionComplete (s : State) : Out :=
  .next (match s.packet with | .evictionComplete k => evictionCompleteStep k s | _ => s)
/-- RESTORE_COMPLETE (R288). -/
def execRestoreComplete (s : State) : Out := .next (match s.packet with | .restoreComplete k => restoreEnd s k | _ => s)
/-- RESTORE_TIMEOUT (R288). -/
def execRestoreTimeout (s : State) : Out := .next (match s.packet with | .restoreTimeout k => restoreEnd s k | _ => s)
/-- STEP_BUILD (R284). -/
def execStepBuild (s : State) : Out := .next (match s.packet with | .stepBuild => stepBuildStep s | _ => s)
/-- BATCH_SEAL (R283). -/
def execBatchSeal (s : State) : Out := .next (match s.packet with | .batchSeal => batchSealStep s | _ => s)
/-- LARDER_REQUEST (R290). -/
def execLarderRequest (s : State) : Out :=
  .next (match s.packet with | .larderRequest _ q src a b l n => larderRequestStep q src a b l n s | _ => s)

end Sys2Proof.Machine
end

