-- ==== Sys2Proof/Machine/Record.lean ====
section
/-! DEFINITION. The launch record (R359), its checks (R360), the placement arithmetic (R366) and the start of a task
(R30). -/

namespace Sys2Proof.Machine

/-! ## Fields (R359) -/

/-- Bytes `[o, o+n)` of a record as a number. -/
def recN (raw : List Byte) (o n : Nat) : Nat := leNat ((raw.drop o).take n)

def recEntry (raw : List Byte) : Word := .ofNat 64 (recN raw 0 8)
def recEv (raw : List Byte) : Nat := recN raw 8 1
def recPrio (raw : List Byte) : Nat := recN raw 9 1
def recLevels (raw : List Byte) : Nat := recN raw 10 1
def recBuild (raw : List Byte) : Bool := recN raw 11 1 == 1
def recMask (raw : List Byte) : Nat := recN raw 14 1
def recArgs (raw : List Byte) : Word := .ofNat 64 (recN raw 16 8)
def recNotBefore (raw : List Byte) : Nat := recN raw 24 8
def recSlice (raw : List Byte) : Nat := recN raw 32 4
def recBudget (raw : List Byte) : Nat := recN raw 36 4
def recBtn (raw : List Byte) : Nat := recN raw 40 4
def recPre (raw : List Byte) (p : Nat) : Word := .ofNat 64 (recN raw (48 + 8 * p) 8)
/-- The scope of the outermost level, the last one (R193, R359). -/
def recScope (raw : List Byte) : Nat := recN raw (82 + 8 * (recLevels raw - 1)) 1 / 16 % 8
def recDone (raw : List Byte) : Word := .ofNat 64 (recN raw 144 8)

/-- A level: its count and its domain rank. -/
structure Level where
  count : Nat
  dom : Nat
  deriving DecidableEq, Repr

def levelAt (raw : List Byte) (k : Nat) : Level := ⟨recN raw (80 + 8 * k) 2 + 1, recN raw (82 + 8 * k) 1 % 8⟩

/-- The declared levels, innermost first. -/
def levelsOf (raw : List Byte) : List Level := (List.range (recLevels raw)).map (levelAt raw)

/-- The descriptor of level `k` breaks its layout. -/
def levelBad (raw : List Byte) (k : Nat) : Bool :=
  let w := recN raw (80 + 8 * k) 8
  if k < recLevels raw then w / 2^19 % 2 != 0 || 5 < w / 2^20 % 8 || w / 2^23 != 0 else w != 0

/-- Step 1 of R360. -/
def recordBad (asid : BitVec 16) (raw : List Byte) : Bool :=
  recEntry raw &&& 63 != 0 || 8 ≤ recPrio raw || recLevels raw == 0 || 8 < recLevels raw || 1 < recN raw 11 1 ||
  recN raw 12 2 != asid.toNat || recMask raw == 0 || 15 < recMask raw || recN raw 15 1 != 0 || 32 ≤ recBudget raw ||
  (!recBuild raw && recBtn raw != 0) || recN raw 44 4 != 0 || (List.range 8).any (levelBad raw) ||
  (raw.drop 152).any (· != 0) ||
  (recBuild raw && (bits (recPre raw 0) 32 32 != recBtn raw || bits (recPre raw 0) 0 32 == 0))

/-! ## Hierarchy (R28, R29, R366) -/

/-- Strands of the largest unit of a domain (R28). -/
def domStrands (dom : Nat) : Nat := [1, 16, 64, 256, 2048, 32704, 130816, 130816].getD dom 0
/-- U(D) of R366. -/
def domAlign (dom : Nat) : Nat := match dom with | 0 => 1 | 1 => 16 | _ => 64

/-- A level with its stride and its padded size. -/
structure Padded where
  level : Level
  stride : Nat
  size : Nat
  deriving DecidableEq, Repr

/-- Strides and padded sizes of the levels that follow one of padded size `a` and domain `d` (R366). -/
def padFrom (a d : Nat) : List Level → List Padded
  | [] => []
  | l :: ls =>
    let al := if d < l.dom then domAlign d else 1
    let stride := (a + al - 1) / al * al
    ⟨l, stride, stride * l.count⟩ :: padFrom (stride * l.count) l.dom ls

def padLevels : List Level → List Padded
  | [] => []
  | l :: ls => ⟨l, 1, l.count⟩ :: padFrom l.count l.dom ls

/-- The level groups are within their domains' strands, and the ranks do not fall (R29). -/
def levelsOk (g d : Nat) : List Level → Bool
  | [] => true
  | l :: ls => d ≤ l.dom && g * l.count ≤ domStrands l.dom && levelsOk (g * l.count) l.dom ls

/-- Step 2 of R360. -/
def hierarchyBad (raw : List Byte) : Bool :=
  let ls := levelsOf raw
  let outer := (ls.getLast?.map (·.dom)).getD 0
  !levelsOk 1 0 ls || (6 ≤ outer && recMask raw != 15) || (padLevels ls).any fun p => domStrands p.level.dom < p.size

/-- Clusters of a placement, K of R366. -/
def clustersOf (raw : List Byte) : Nat := (((padLevels (levelsOf raw)).getLast?.map (·.size)).getD 0 + 63) / 64

/-- Slots that tasks take (R366). -/
def taskSlots (raw : List Byte) : List Nat :=
  (padLevels (levelsOf raw)).foldl (fun slots p => (List.range p.level.count).flatMap fun c => slots.map (· + c * p.stride)) [0]

/-- Coordinates of the task in a slot, outermost level first. -/
def coordsDown : List Padded → Nat → List Nat
  | [], _ => []
  | p :: ps, slot => slot / p.stride :: coordsDown ps (slot % p.stride)

/-- Coordinates c0, c1, … of the task in a slot. -/
def coordsOf (raw : List Byte) (slot : Nat) : List Nat := (coordsDown (padLevels (levelsOf raw)).reverse slot).reverse

/-! ## Task start -/

/-- A strand at task start (R30, R97, R381). -/
def taskStrand (d : Strand) (l : Launch) (slot : Nat) : Strand :=
  let cs := coordsOf l.raw slot
  { d with
    g := Vector.ofFn fun i : Fin 32 =>
      if i.1 < 8 then .ofNat 64 (cs.getD i.1 0) else if i.1 = 8 then recArgs l.raw else 0
    v := .replicate 16 0
    bpc := recEntry l.raw
    status := 2
    tcause := 0
    tval := 0
    tblk := 0
    tlsid := 0
    ttime := 0
    nflag := 0
    fpmode := 0
    cycles := 0
    blocks := 0
    resume := 0
    live := true
    ev := recEv l.raw
    launch := some (l.asid, l.ver, slot)
    phase := .boundary
    report := none
    commitTraps := [] }

/-- The task of a slot starts on a strand, or waits for the end of the handler that runs there (R30, R338). -/
def startTask (s : State) (c t : Nat) (l : Launch) (slot : Nat) : State :=
  if (s.strand c t).hnd then onLaunch s l.asid l.ver fun x => { x with waiting := x.waiting ++ [(c, t, slot, none)] }
  else s.onStrand c t fun d => taskStrand d l slot

/-- A saved strand takes its place on a strand (R372, R396). -/
def putStrand (s : State) (c t : Nat) (img : Strand) : State :=
  s.onStrand c t fun d => { img with
    epoch := d.epoch + 1
    block := none
    phase := if img.live || img.hnd then .boundary else .idle }

/-- Of what waits for a strand the first is taken. -/
def takeFirst (p : Nat × Nat × Nat × Option Strand → Bool) :
    List (Nat × Nat × Nat × Option Strand) → List (Nat × Nat × Nat × Option Strand)
  | [] => []
  | w :: ws => if p w then ws else w :: takeFirst p ws

/-- After the commit of a handler's HRET, a task of the core's lease that waits for the strand starts on it (R338). -/
def startWaiting (s : State) (c t : Nat) : State :=
  let here (w : Nat × Nat × Nat × Option Strand) : Bool := w.1 == c && w.2.1 == t
  match s.launches.find? fun l => hasCore l c && l.waiting.any here with
  | none => s
  | some l =>
    match l.waiting.find? here with
    | none => s
    | some (_, _, slot, img) =>
      let s := onLaunch s l.asid l.ver fun x => { x with waiting := takeFirst here x.waiting }
      match img with
      | some i => putStrand s c t i
      | none => s.onStrand c t fun d => taskStrand d l slot

end Sys2Proof.Machine
end

