-- ==== Sys2Proof/Machine/Save.lean ====
section
/-! DEFINITION. Pre-emption and the save area (R395, R396): how strands stop, what a context save writes and where, and
how a restore puts it back (R316, R334, R337, R340, R372). What R396 lays out in bytes goes through memory; what it does
not (channels, commands, planes, a local version's waits) is kept in `State.saved` (log 9, DESIGN CHOICE). -/

namespace Sys2Proof.Machine

/-! ## Save frames -/

/-- Address and capacity of a frame entry that a lease can take: V = 1, BUSY = 0 (R396). -/
def freeFrame (s : State) (area f : Nat) : Option (Nat × Nat) :=
  let e := physWord s (area + 0x100 + 16 * f)
  let cap := physWord s (area + 0x108 + 16 * f)
  let pa := bits e 12 39 * 2^12
  if !poisoned s (area + 0x100 + 16 * f) && e.getLsbD 0 && !e.getLsbD 1 && bits e 2 10 == 0 && bits e 51 13 == 0 && bits cap 14 50 == 0 && inHbm pa then
    some (pa, bits cap 0 14)
  else none

/-- The lowest-numbered frame with room for the launch (R396): its number, and the addresses of its entry and of the frame. -/
def takeFrame (s : State) (l : Launch) : Option (Nat × Nat × Nat) :=
  match saveArea s l.asid with
  | none => none
  | some area =>
    ((List.range 16).find? fun f => match freeFrame s area f with | some (_, cap) => 4 * clustersOf l.raw ≤ cap | none => false).bind
      fun f => (freeFrame s area f).map fun e => (f, area + 0x100 + 16 * f, e.1)

/-- BUSY of a frame whose entry has V = 1: the entry's first byte, whose other bits are zero, is written (R396). -/
def setBusy (s : State) (entry : Nat) (busy : Bool) : State := putBytes s entry [if busy then 3 else 1]

/-- Address of image `k` in the frame that a launch took. -/
def imageAt (l : Launch) (k : Nat) : Nat := l.frameAt.2 + 0x10000 + k * 0x60000

/-! ## Images -/

def trapWord (r : TrapRec) : Nat := r.cause.toNat + 2^8 * r.sub.toNat

/-- The image of a strand (R396). -/
def strandImage (d : Strand) : List Byte :=
  let rep : List Nat := match d.report with
    | some r => [trapWord r, r.tval.toNat, r.tblk.toNat, r.tlsid.toNat]
    | none => [0, 0, 0, 0]
  let ct := (d.commitTraps.take 3).flatMap fun r => [trapWord r, r.tval.toNat, r.tblk.toNat, r.resume.toNat]
  let b (x : Bool) (i : Nat) : Nat := if x then 2^i else 0
  let st := b d.live 0 + b d.hnd 1 + b d.rbpc.isSome 2 + b d.report.isSome 3 + 2^4 * min 3 d.commitTraps.length
  let words : List Nat := d.bpc.toNat :: ((List.range 10).map fun i => (strandReg d i).toNat) ++ [0, st, (d.rbpc.getD 0).toNat,
    d.resume.toNat] ++ rep ++ ct ++ List.replicate (12 - ct.length) 0
  (d.g.toList.flatMap fun x => leBytes x.toNat 8) ++ (d.v.toList.flatMap fun x => leBytes x.toNat 64) ++
    words.flatMap fun w => leBytes w 8

/-- A strand as its image says (R396). -/
def strandFrom (d : Strand) (img : List Byte) : Strand :=
  let w (o : Nat) : Word := .ofNat 64 (recN img o 8)
  let st := w 0x560
  let trap (o : Nat) (rep : Bool) : TrapRec :=
    { cause := .ofNat 8 (bits (w o) 0 8), sub := .ofNat 8 (bits (w o) 8 8), tval := w (o + 8), tblk := w (o + 16)
      tlsid := if rep then .ofNat 6 (bits (w (o + 24)) 0 6) else 0, resume := if rep then 0 else w (o + 24) &&& ~~~63 }
  { d with
    g := Vector.ofFn fun i : Fin 32 => w (8 * i.1)
    v := Vector.ofFn fun i : Fin 16 => .ofNat 512 (recN img (0x100 + 64 * i.1) 64)
    bpc := w 0x500 &&& ~~~63
    status := w 0x508 &&& 0x307
    tcause := w 0x510 &&& 0xFFFF
    tval := w 0x518
    tblk := w 0x520
    tlsid := w 0x528 &&& 0x3F
    ttime := w 0x530 &&& 0xFFFFFFFFFF
    nflag := w 0x538 &&& 1
    fpmode := w 0x540 &&& 7
    cycles := w 0x548
    blocks := w 0x550
    live := st.getLsbD 0
    hnd := st.getLsbD 1
    rbpc := if st.getLsbD 2 then some (w 0x568 &&& ~~~63) else none
    resume := w 0x570 &&& ~~~63
    report := if st.getLsbD 3 then some (trap 0x578 true) else none
    commitTraps := (List.range (bits st 4 3)).map fun i => trap (0x598 + 32 * i) false }

/-- Indices of the core registers (R99). -/
def coreRegs : List Nat :=
  [0x100, 0x101, 0x102] ++ (List.range 7).map (0x111 + ·) ++ (List.range 7).map (0x119 + ·) ++ (List.range 9).map (0x120 + ·)

/-- A plane's elements in an image: value (k, j) at 64 k + j (log 9, DESIGN CHOICE), 8 bytes each. -/
def planeImage (p : Plane) : List Byte :=
  (denseOf plusZeroElem p.elems 0 4096).flatMap fun w => leBytes (w.toNat % 2^27) 8

/-- The unfinished commands in an image: word 0 and ARG32, and free bytes for the operand tokens, whose layout is open (R396;
log 9, DESIGN CHOICE). -/
def putCmds (s : State) (pa : Nat) (cmds : List Cmd) : State :=
  cmds.zipIdx.foldl (fun s (c, i) =>
    putFree (putBytes s (pa + 128 * i) (leBytes c.w0.toNat 4 ++ leBytes c.w1.toNat 4)) (pa + 128 * i + 8) 120) s

/-- A core's image goes to its save frame (R396). Loft bytes that hold an uncorrectable error are written as they stand, and their
marks come back from the saved record (log 9, DESIGN CHOICE). -/
def writeImage (s : State) (pa c : Nat) (cmds : List Cmd) : State :=
  let k := s.core c
  let s := (List.range 16).foldl (fun s t => putBytes s (pa + 0x800 * t) (strandImage (s.strand c t))) s
  let s := coreRegs.foldl (fun s i => putBytes s (pa + 0x8000 + 8 * (i - 0x100)) (leBytes (coreReg k i).toNat 8)) s
  let s := putBytes s (pa + 0x9000) ((List.range 64).flatMap fun l =>
    leBytes ((lvtImage (aget k.lvt l LVer.reset)).pay.toNat) 16)
  let s := putFree s (pa + 0xA000) 0x6000
  let s := putCmds s (pa + 0x10000) cmds
  let s := putBytes s (pa + 0x30000) (memBytes k.loft 0 0x18000)
  let s := putBytes s (pa + 0x48000) ((denseOf 0 k.mat.acc 0 8192).flatMap fun x => leBytes x.toNat 4)
  putBytes (putBytes s (pa + 0x50000) (planeImage k.mat.active)) (pa + 0x58000) (planeImage k.mat.shadow)

/-- A list of bytes as sparse memory. -/
def sparseBytes : List Byte → Nat → Mem
  | [], _ => []
  | b :: bs, a => if b = 0 then sparseBytes bs (a + 1) else (a, b) :: sparseBytes bs (a + 1)

/-- Little-endian 32-bit words of bytes. -/
def words32 : List Byte → List (BitVec 32)
  | a :: b :: c :: d :: r => .ofNat 32 (leNat [a, b, c, d]) :: words32 r
  | _ => []

/-- Bytes of one line of a save frame: an error in it is counted, and the bytes are free (R189; log 68, DESIGN CHOICE). -/
def frameLine (s : State) (pa n : Nat) : List Byte × State :=
  if poisoned s pa then
    let (x, s) := (dataUe s (sliceOf (fwd s pa))).drawBelow (256^n)
    (leBytes x n, s)
  else (physRead s pa n, mayCache s (fwd s pa))

/-- Bytes of a save frame, line by line. -/
def frameLines : Nat → State → Nat → Nat → List Byte × State
  | 0, s, _, _ => ([], s)
  | k + 1, s, pa, n =>
    if n = 0 then ([], s)
    else
      let m := min n (128 - pa % 128)
      let (d, s) := frameLine s pa m
      let (ds, s) := frameLines k s (pa + m) (n - m)
      (d ++ ds, s)
def readFrame (s : State) (pa n : Nat) : List Byte × State := frameLines (n / 128 + 2) s pa n

/-- A local version as its image says (R244); a STATE code that R228 does not name is FREE. -/
def lvtFrom (img : List Byte) : LVer :=
  let lo : Word := .ofNat 64 (recN img 0 8)
  let hi : Word := .ofNat 64 (recN img 8 8)
  { ver := .ofNat 16 (bits lo 0 16)
    state := match bits lo 16 3 with | 1 => .filling | 2 => .sealed_ | 3 => .aliased | 4 => .poisoned | 5 => .retiring | _ => .free
    fmt := .ofNat 4 (bits lo 19 4), fin := lo.getLsbD 23, pend := bits lo 24 17, size := bits lo 41 17, alink := bits lo 58 6
    refs := bits hi 0 8, addr := bits hi 8 11, wait := .ofNat 16 (bits hi 19 16), xref := bits hi 35 6 }

/-- A plane as its image says; a B8 descriptor comes from the saved plane (log 9, DESIGN CHOICE). -/
def planeFrom (img : List Byte) (p : Plane) : Plane :=
  let b8 := (denseOf plusZeroElem p.elems 0 4096).map fun w => w.toNat / 2^27
  { p with elems := sparseOf plusZeroElem (b8.zipIdx.map fun (b, i) => .ofNat 32 (recN img (8 * i) 8 % 2^27 + 2^27 * b)) 0 }

/-- The core part of an image: registers, local versions, Loft, accumulators and planes. -/
def readImage (s : State) (pa c : Nat) : State :=
  let (regs, s) := readFrame s (pa + 0x8000) 0x200
  let (lvt, s) := readFrame s (pa + 0x9000) 0x400
  let (loft, s) := readFrame s (pa + 0x30000) 0x18000
  let (acc, s) := readFrame s (pa + 0x48000) 0x8000
  let (active, s) := readFrame s (pa + 0x50000) 0x8000
  let (shadow, s) := readFrame s (pa + 0x58000) 0x8000
  let w (i : Nat) : Word := .ofNat 64 (recN regs (8 * (i - 0x100)) 8)
  let s := coreRegs.foldl (fun s i => writeCoreReg s c i (w i)) s
  s.onCore c fun k => { k with
    matcfg := .ofNat 32 (bits (w 0x126) 0 16)
    lvt := sparseOf LVer.reset ((List.range 64).map fun l => lvtFrom ((lvt.drop (16 * l)).take 16)) 0
    loft := sparseBytes loft 0
    mat := { k.mat with
      acc := sparseOf 0 (words32 acc) 0
      active := planeFrom active k.mat.active
      shadow := planeFrom shadow k.mat.shadow } }

/-- Commands with word 0 and ARG32 as the image says. -/
def cmdsFrom (pa : Nat) : List Cmd → State → List Cmd × State
  | [], s => ([], s)
  | c :: cs, s =>
    let (d, s) := readFrame s pa 8
    let (cs, s) := cmdsFrom (pa + 128) cs s
    ({ c with w0 := .ofNat 32 (recN d 0 4), w1 := .ofNat 32 (recN d 4 4) } :: cs, s)

/-! ## Pre-emption (R395) -/

/-- The launch whose lease has a core. -/
def launchOn (s : State) (core : Nat) : Option Launch :=
  s.launches.find? fun l => match l.lease with | some (cs, _) => cs.contains (core / 4) | none => false

/-- One strand when the pre-empt arrives. -/
def preemptStrand (c : Nat) (v : Word) (s : State) (t : Nat) : State :=
  let d := s.strand c t
  match d.phase with
  | .idle => stopStrand (s.onStrand c t fun d => { d with preempt := some v }) c t
  | .stopped => s
  | .held _ => stopStrand (s.onStrand c t fun d => { d with preempt := some v, bpc := d.tblk }) c t
  | .running => s.onStrand c t fun d => { d with preempt := some v }
  | _ =>
    let s := s.onStrand c t fun d => { d with preempt := some v }
    if statusIE d.status then stopStrand s c t else s

/-- PREEMPT_ARRIVAL (R395): TVAL will be TIMEBASE at lease expiry (R380). -/
def preemptArrivalStep (c : Nat) (s : State) : State :=
  let e : Nat := match launchOn s c with
    | some l => (match l.lease with | some (_, some e) => e | _ => s.timebase.toNat)
    | none => s.timebase.toNat
  (List.range 16).foldl (preemptStrand c (.ofNat 64 e)) (s.onCore c fun k => { k with preemptAt := some s.cycle })

/-- PREEMPT_GRACE_EXPIRY (R395): blocks that are not irrevocable are flushed; their strands stop. -/
def preemptGraceExpiryStep (c : Nat) (s : State) : State :=
  (List.range 16).foldl (fun s t =>
    let d := s.strand c t
    match d.block with
    | some b => if preempted d && !b.irrev then stopStrand (flush s c t) c t else s
    | none => s) s

/-- Place of a core in a lease: image number `k` (R366, R396). -/
def placeOf : List Nat → Nat → Nat → Nat
  | [], _, k => k
  | q :: qs, c, k => if q == c / 4 then k + corePos c else placeOf qs c (k + 4)

/-- The commands of a core that have not started, as they re-enter (R316): a fetch is abandoned. -/
def parkCmd (c : Cmd) : Cmd :=
  { c with run := false, parked := false, at_ := 0, got := [], parts := 0, wrote := [], unacked := 0, failed := none, buf := [], fetched := false
           rbuf := [], rfetched := false }

/-- The trap message of a context save (R386, R395, R402); CAUSE, TVAL and TBLK of KIND 3 are open (log 29, DESIGN CHOICE). -/
def saveMsg (s : State) (asid : BitVec 16) (c f : Nat) : State :=
  let (cause, s) := s.drawBelow 256
  let (tval, s) := s.drawBelow (2^64)
  let (tblk, s) := s.drawBelow (2^64)
  s.emit (.trapMessageAtCollector
    { kind := 3, cause := .ofNat 8 cause, asid := asid, row := coreRow c, die := coreDie c, code := .ofNat 16 f
      tval := .ofNat 64 tval, cores := .ofNat 128 (2^(4 * coreCol c + corePos c)), tblk := .ofNat 64 tblk
      ttime := s.stamp, count := 1, time := s.stamp })

/-- Messages are spilled one after another; those that find no room are left. -/
def spillAll (image : Nat × Nat) : List Msg → State → List Msg × State
  | [], s => ([], s)
  | m :: ms, s =>
    match spillMsg s m (some image) with
    | some s => spillAll image ms s
    | none => (m :: ms, s)

/-- The class queues of a core are spilled for its image, with what was being replayed into it; what has no room is refused,
in the order of its sending (R337). -/
def spillQueues (s : State) (c : Nat) (image : Nat × Nat) : State :=
  let asid := (s.core c).asid
  let mine := (s.core c).msgs.filter fun m => !m.trap && m.asid == asid
  let s := s.onCore c fun k => { k with msgs := k.msgs.filter fun m => m.trap || m.asid != asid }
  let back := (aget s.spill asid.toNat []).map fun e => if e.into == some c then { e with image := some image, into := none } else e
  let (left, s) := spillAll image mine { s with spill := aput s.spill asid.toNat back }
  left.foldr (fun m s => refuse s m 64) s

/-- A strand whose context has been saved: its registers stay, and it holds no task and no handler (log 9, DESIGN CHOICE). -/
def savedStrand (d : Strand) : Strand :=
  { d with
    hnd := false
    rbpc := none
    live := false
    launch := none
    phase := .idle
    report := none
    commitTraps := []
    timer := none
    preempt := none
    warn := none
    ext := []
    engOut := 0
    matOut := 0
    yielding := none
    aligned := none
    epoch := d.epoch + 1
    block := none }

/-- A command of the core that has not started. -/
def queuedOf (c : Nat) (x : Cmd) : Bool := x.src.core == c && !x.run

/-- What a save keeps of a core beside its bytes in the frame (log 9, DESIGN CHOICE). -/
def savedOf (s : State) (asid : BitVec 16) (f k c : Nat) : Saved where
  asid := asid
  frame := f
  k := k
  from_ := c
  core := s.core c
  engine := ((s.engine (engineOf c)).filter (queuedOf c)).map parkCmd
  link := (List.range 12).flatMap fun p => ((s.port p).cmds.filter (queuedOf c)).map fun x => (p, parkCmd x)

/-- The commands of a saved core in the order of their image: matrix, engine, link. -/
def Saved.cmds (v : Saved) : List Cmd := v.core.mat.queue ++ v.engine ++ v.link.map (·.2)

/-- The core's commands that have not started leave their units: their watches, answers and fetches go with them (R316, R340,
R358). -/
def dropQueued (s : State) (c : Nat) : State :=
  let en := engineOf c
  let eng := (s.engine en).filter (queuedOf c)
  let link := (List.range 12).flatMap fun p => ((s.port p).cmds.filter (queuedOf c)).map fun x => (p, x)
  let s := eng.foldl (fun s x => cancelEngine s en x) s
  let s := link.foldl (fun s x => cancelLink s x.1 x.2) s
  let s := onCmds s 0 en fun q => q.filter fun x => !queuedOf c x
  let s := (List.range 12).foldl (fun s p => onCmds s 2 p fun q => q.filter fun x => !queuedOf c x) s
  { s with
    due := s.due.filter fun p => match p with
      | .matrixCommandFail u _ _ _ => u != c
      | .engineSourceAnswer e id _ => !(e == en && eng.any fun x => x.id == id)
      | .linkSourceAnswer p id _ => !link.any fun x => x.1 == p && x.2.id == id
      | _ => true
    tags := s.tags.filter fun x => match x.2 with
      | .fetch 0 u id _ => !(u == en && eng.any fun x => x.id == id)
      | .fetch 1 u _ _ => u != c
      | .fetch _ u id _ => !link.any fun x => x.1 == u && x.2.id == id
      | _ => true }

/-- CONTEXT_SAVE (R395, R396); with the last core of the lease the launch is held again (R373). -/
def contextSaveStep (c : Nat) (s : State) : State :=
  match launchOn s c with
  | none => s
  | some l =>
    match l.lease, l.saved with
    | some (cs, e), some f =>
      let k := placeOf cs c 0
      let v := savedOf s l.asid f k c
      let s := writeImage s (imageAt l k) c v.cmds
      let s := putBytes s (l.frameAt.2 + 0x200 + 2 * k) (leBytes c 2)
      let s := dropQueued { s with saved := s.saved ++ [v] } c
      let s := spillQueues s c (f, k)
      let s := s.onCore c fun x => { x with
        strands := x.strands.map fun d => (d.1, savedStrand d.2)
        chans := x.chans.map fun h => (h.1, { h.2 with ents := [], head := h.2.tail })
        mat := { x.mat with queue := [] }
        preemptAt := none }
      let s := saveMsg s l.asid c f
      if l.savedCores + 1 < 4 * cs.length then onLaunch s l.asid l.ver fun x => { x with savedCores := x.savedCores + 1 }
      else (onLaunch s l.asid l.ver fun x => { x with
          savedCores := 0
          lease := none
          preempting := false
          elig := some (e.getD s.timebase.toNat)
          cls := recPrio x.raw
          clsAt := s.timebase.toNat }).emit .placementPass
    | _, _ => s

/-! ## Restore (R372, R396) -/

/-- Commands of a saved core, for the core that restores it. -/
def moveCmd (c : Nat) (x : Cmd) : Cmd := { x with src := { x.src with core := c } }

/-- A restored command whose port is DOWN fails (R352). -/
def failDown (s : State) (x : Nat × Cmd) : State :=
  if (s.port x.1).st == .down then failCmd s 2 x.1 x.2.id 0x11 (.ofNat 64 ((linkLane1 x.2).toNat / 64 * 64 + 4)) else s

/-- One core is restored from image `v` (R372): its queued commands re-enter ahead of what is queued there (R316, R319), its L1 holds
nothing, and what its strands held comes before a task that waits for the same strand (R338). -/
def restoreCore (l : Launch) (s : State) (v : Saved) (c : Nat) : State :=
  let old := s.core c
  let pa := imageAt l v.k
  let (cmds, s) := cmdsFrom (pa + 0x10000) v.cmds s
  let cmds := cmds.map fun x => moveCmd c (parkCmd x)
  let nm := v.core.mat.queue.length
  let link := (v.link.map (·.1)).zip (cmds.drop (nm + v.engine.length))
  let chans := (List.range 4).map fun d =>
    let h := v.core.chan d
    (d, { h with resv := (old.chan d).resv, claim := none })
  let s := (l1Forget s c fun _ _ => true).onCore c fun k => { v.core with
    asid := l.asid
    strands := k.strands
    l1 := []
    sb := k.sb
    msgs := k.msgs
    chans := chans
    pctl := k.pctl
    pcnt := k.pcnt
    portA := k.portA
    portM := k.portM
    preemptAt := none
    htabRead := none
    mat := { v.core.mat with queue := cmds.take nm ++ k.mat.queue } }
  let s := readImage s pa c
  let en := engineOf c
  let s := onCmds s 0 en fun q => (cmds.drop nm).take v.engine.length ++ q
  let s := link.reverse.foldl (fun s x => onCmds s 2 x.1 fun q => x.2 :: q) s
  let s := link.foldl failDown s
  (List.range 16).foldl (fun s t =>
    let (d, s) := readFrame s (pa + 0x800 * t) 0x800
    let img := strandFrom (aget v.core.strands t (Strand.reset false)) d
    if (s.strand c t).hnd then
      (if img.live || img.hnd then
        onLaunch s l.asid l.ver fun x => { x with waiting := (c, t, 16 * v.k + t, some img) :: x.waiting }
      else s)
    else putStrand s c t img) s

/-- The spilled messages that belong to the images of a frame are given to the cores that restore them, and those that belong
to no image to the core they are addressed to (R337). -/
def claimSpill (s : State) (asid : BitVec 16) (f : Nat) (cores : List Nat) : State :=
  let give (e : Spilled) : Spilled :=
    match e.image with
    | some (g, k) =>
      let c := cores.getD k 0
      if g == f then { msg := { e.msg with dest := c }, image := none, into := some c } else e
    | none => if e.into.isNone && cores.contains e.msg.dest then { e with into := some e.msg.dest } else e
  { s with spill := aput s.spill asid.toNat ((aget s.spill asid.toNat []).map give) }

/-- What waits for a strand of a saved launch waits for the strand at its slot on the cores of the new lease (R338, R372). -/
def moveWaiting (cores : List Nat) (w : Nat × Nat × Nat × Option Strand) : Nat × Nat × Nat × Option Strand :=
  (cores.getD (w.2.2.1 / 16) 0, w.2.2.1 % 16, w.2.2)

/-- A saved launch is restored onto the cores of its lease; the frame's BUSY is cleared (R372, R396). -/
def restoreLaunch (s : State) (l : Launch) (f : Nat) (cores : List Nat) : State :=
  let mine := s.saved.filter fun v => v.asid == l.asid && v.frame == f
  let s := { s with saved := s.saved.filter fun v => !(v.asid == l.asid && v.frame == f) }
  let s := onLaunch s l.asid l.ver fun x => { x with waiting := x.waiting.map (moveWaiting cores) }
  let s := mine.foldl (fun s v => restoreCore l s v (cores.getD v.k 0)) s
  let s := cores.foldl (fun s c => (List.range 16).foldl (fun s t =>
    if (s.strand c t).hnd || (s.strand c t).live then s else startWaiting s c t) s) s
  let s := claimSpill s l.asid f cores
  let s := cores.foldl drainSpill s
  setBusy s l.frameAt.1 false

/-- PREEMPT_ARRIVAL (R395). -/
def execPreemptArrival (s : State) : Out := .next (match s.packet with | .preemptArrival c => preemptArrivalStep c s | _ => s)
/-- PREEMPT_GRACE_EXPIRY (R395). -/
def execPreemptGraceExpiry (s : State) : Out :=
  .next (match s.packet with | .preemptGraceExpiry c => preemptGraceExpiryStep c s | _ => s)
/-- CONTEXT_SAVE (R395). -/
def execContextSave (s : State) : Out := .next (match s.packet with | .contextSave c => contextSaveStep c s | _ => s)

end Sys2Proof.Machine
end

