-- ==== Sys2Proof/Machine/Sched.lean ====
section
/-! DEFINITION. The dispatcher (chapter 18): submission, eligibility, placement, leases and retirement. -/

namespace Sys2Proof.Machine

/-- A number of the clock: TIMEBASE in ns. -/
def State.now (s : State) : Nat := s.timebase.toNat

/-! ## Status and removal -/

/-- The DONE fill (R368). -/
def doneFill (s : State) (asid : BitVec 16) (raw : List Byte) (status : Nat) : State :=
  let r := refOf asid (recDone raw)
  if r.ver == 0 then s
  else match fillVer s r 0 ((leBytes (s.stamp.toNat + 2^40 * status) 8).map some) with
    | (none, s) => s
    | (some _, s) => s.count 3

/-- The dispatcher's waiters for a launch's prerequisites go. -/
def cancelPrereqs (s : State) (l : Launch) : State :=
  let mine (w : WaitFor) : Bool := match w with | .prereq v _ => v == l.ver | _ => false
  (List.range 4).foldl (fun s p => dropWatch s (refOf l.asid (recPre l.raw p)) mine) s

/-- A launch is rejected with a status (R360). -/
def rejectLaunch (s : State) (l : Launch) (status : Nat) : State :=
  let s := cancelPrereqs { s with launches := s.launches.filter fun x => !(x.asid == l.asid && x.ver == l.ver) } l
  doneFill s l.asid l.raw status

/-! ## Eligibility (R365, R367) -/

/-- Prerequisite `p` is used and has not been answered readable. -/
def openPre (l : Launch) (p : Nat) : Bool := bits (recPre l.raw p) 0 32 != 0 && !l.preOk.contains p

/-- A launch's build is asked for, and it becomes eligible, when what each waits for holds. Its eligibility time is the moment
at which the last of its conditions came to hold, NOTBEFORE among them. -/
def advanceLaunch (s : State) (asid : BitVec 16) (ver : BitVec 32) : State :=
  match findLaunch s asid ver with
  | none => s
  | some l =>
    let s := if recBuild l.raw && !l.built && l.notBefore && [1, 2, 3].all (fun p => !openPre l p) then
        onLaunch { s with builds := s.builds ++
          [{ asid := asid, budget := 256 * (recBudget l.raw + 1), btn := .ofNat 32 (recBtn l.raw), who := none, start := none
             ver := 0, plans := [], bytes := [], decodes := 0, tokens := 0 }] } asid ver fun x => { x with built := true }
      else s
    if l.notBefore && (List.range 4).all (fun p => !openPre l p) then
      (onLaunch s asid ver fun x => { x with
        elig := some (max x.since (recNotBefore x.raw)), cls := recPrio x.raw, clsAt := s.now }).emit .placementPass
    else s

/-! ## Submission (R363, R364) -/

def nextlOf (s : State) (asid : BitVec 16) : Nat := aget s.nextl asid.toNat 1
/-- Launch version NEXTL of an ASID. -/
def launchRef (s : State) (asid : BitVec 16) : Ref := ⟨asid, 0xFFFFFFFF, .ofNat 32 (nextlOf s asid)⟩
/-- The die-0 directory entry of the ASID has V = 1; one in error is as one with V = 0 (log 68, DESIGN CHOICE). -/
def served (s : State) (asid : BitVec 16) : Bool := !poisoned s (8 * asid.toNat) && (physWord s (8 * asid.toNat)).getLsbD 0

def isNextl (w : Waiter) : Bool := w.who == .nextl
/-- The dispatcher's watch on NEXTL stands, or its answer is under way. -/
def nextlWatched (s : State) (asid : BitVec 16) : Bool :=
  let k := s.slice (homeOf asid 0xFFFFFFFF)
  (k.tiles.any fun t => t.asid == asid && t.waiters.any isNextl) || (k.vers.any fun e => e.asid == asid && e.waiters.any isNextl) ||
  (s.due.any fun p => match p with
    | .launchAccept a => a == asid
    | .watchRetry r .nextl _ _ => r.asid == asid
    | _ => false) ||
  (s.tags.any fun x => x.2 == .record asid)

/-- NEXTL advances, and the next version is watched. -/
def nextVersion (s : State) (asid : BitVec 16) : State :=
  let s := { s with nextl := aput s.nextl asid.toNat ((nextlOf s asid + 1) % 2^32), records := adel s.records asid.toNat }
  watchVer s (launchRef s asid) .nextl 64

/-- A record is accepted, or rejected at once (R360); its prerequisites are watched (R369). -/
def acceptRecord (s : State) (r : Ref) (raw : List Byte) : State :=
  let l : Launch :=
    { asid := r.asid, ver := r.ver, raw := raw, preOk := [], notBefore := recNotBefore raw ≤ s.now, built := false
      since := s.now, elig := none, cls := 0, clsAt := 0, saved := none, frameAt := (0, 0), lease := none, preempting := false, savedCores := 0
      ended := [], waiting := [], cmds := 0 }
  if recordBad r.asid raw then doneFill s r.asid raw 1
  else if hierarchyBad raw then doneFill s r.asid raw 2
  else
    let s := { s with launches := s.launches ++ [l] }
    let s := (List.range 4).foldl (fun s p =>
      if openPre l p then watchVer s (refOf r.asid (recPre raw p)) (.prereq r.ver p) 64 else s) s
    advanceLaunch s r.asid r.ver

/-- LAUNCH_ACCEPT (R363, R364): version NEXTL is accepted, skipped, or watched. -/
def launchAcceptStep (asid : BitVec 16) (s : State) : State :=
  let r := launchRef s asid
  let skip (s : State) : State := nextVersion (s.count 2) asid
  let accept (s : State) (raw : List Byte) : State := nextVersion (acceptRecord (dropRef s r).2 r raw) asid
  match findVer s r with
  | none => if r.ver.toNat ≤ hwmOf s asid r.tn then skip s else if nextlWatched s asid then s else watchVer s r .nextl 64
  | some e =>
    match ansOf e with
    | .readable =>
      if e.size != 256 || e.fmt != 0 then skip s
      else if !(ownerOf s e).proxy then accept s (verBytes s e 0 256)
      else (match s.records.find? fun x => x.1 == asid.toNat with
        | some (_, some raw) => accept s raw
        | some (_, none) => skip s
        | none => if nextlWatched s asid then s else readSource s (ownerOf s e) 0 256 (.record asid))
    | _ =>
      if e.state == .filling then (if nextlWatched s asid then s else watchVer s r .nextl 64) else skip s

/-- PREREQUISITE_ANSWER (R369). `time`: TIMEBASE when the prerequisite became readable (R367). -/
def prerequisiteAnswerStep (asid : BitVec 16) (ver : BitVec 32) (p : Nat) (a : Answer) (time : Nat) (s : State) : State :=
  match findLaunch s asid ver with
  | none => s
  | some l =>
    if a == .readable then advanceLaunch (onLaunch s asid ver fun l => { l with preOk := l.preOk ++ [p], since := max l.since time }) asid ver
    else rejectLaunch s l 3

/-- NOTBEFORE_REACHED (R367). -/
def notbeforeReachedStep (asid : BitVec 16) (ver : BitVec 32) (s : State) : State :=
  advanceLaunch (onLaunch s asid ver fun l => { l with notBefore := true }) asid ver

/-! ## Rank (R370) -/

/-- A launch is eligible and not placed. -/
def waits (l : Launch) : Bool := l.elig.isSome && l.lease.isNone

/-- The effective class now. -/
def classNow (s : State) (l : Launch) : Nat := min 7 (recPrio l.raw + (s.now - l.elig.getD 0) / 2000000)

/-- CLASS_AGING (R370). -/
def classAgingStep (asid : BitVec 16) (ver : BitVec 32) (s : State) : State :=
  match findLaunch s asid ver with
  | none => s
  | some l =>
    let c := classNow s l
    if !waits l || c == l.cls then s
    else (onLaunch s asid ver fun l => { l with cls := c, clsAt := s.now }).emit .placementPass

/-- The order of a pass: by the effective class at the pass. -/
def ranksBefore (s : State) (x y : Launch) : Bool :=
  let key (l : Launch) : Nat × Nat × Nat := (l.elig.getD 0, l.asid.toNat, l.ver.toNat)
  let (e, a, v) := key x
  let (f, b, w) := key y
  let p := classNow s x
  let q := classNow s y
  q < p || (p == q && (e < f || (e == f && (a < b || (a == b && v < w)))))

def insertRank (s : State) (x : Launch) : List Launch → List Launch
  | [] => [x]
  | y :: ys => if ranksBefore s x y then x :: y :: ys else y :: insertRank s x ys

/-- The eligible launches in rank order. -/
def ranked (s : State) : List Launch := (s.launches.filter waits).foldr (insertRank s) []

/-! ## Placement (R371) -/

/-- The user clusters of the dies in a mask, in row-major order: die × 512 + row × 32 + column. -/
def userClusters (mask : Nat) : List Nat := (List.range 2048).filter fun q => mask / 2^(q / 512) % 2 == 1 && q % 512 != 0

/-- The unit of a domain that a cluster lies in. -/
def unitOf (dom q : Nat) : Nat := match dom with | 3 => q / 4 | 4 => q / 32 | 5 => q / 512 | _ => 0

/-- Bases of the groups of a level: the slots of all coordinates of the levels above it. -/
def groupBases (above : List Padded) : List Nat :=
  above.foldl (fun slots x => (List.range x.level.count).flatMap fun c => slots.map (· + c * x.stride)) [0]

/-- The groups of several placement clusters whose domain is QUAD or larger: first and last placement cluster, and the domain. -/
def groupsOf : List Padded → List (Nat × Nat × Nat)
  | [] => []
  | p :: above =>
    (if 3 ≤ p.level.dom then
      ((groupBases above).map fun b => (b / 64, (b + p.size - 1) / 64, p.level.dom)).filter fun g => g.1 < g.2.1
    else []) ++ groupsOf above

/-- A placement: its distinct (die, row) pairs, its sum of thermal classes and its clusters. -/
structure Fit where
  rows : Nat
  sum : Nat
  run : List Nat
  deriving DecidableEq, Repr

/-- A run of clusters as a placement. -/
def fitOf (s : State) (run : List Nat) : Fit :=
  ⟨(run.map (· / 32)).eraseDups.length, (run.map fun q => aget s.thermal.cls q 0).foldl (· + ·) 0, run⟩

/-- The run of `k` clusters at the head of `us`, if they are free and each group lies in one unit of its domain. -/
def runAt (free : Nat → Bool) (k : Nat) (groups : List (Nat × Nat × Nat)) (us : List Nat) : Option (List Nat) :=
  let g := us.take k
  if g.length == k && g.all free && groups.all (fun x => unitOf x.2.2 (g.getD x.1 0) == unitOf x.2.2 (g.getD x.2.1 0)) then some g
  else none

/-- The first of two placements unless the second has fewer rows, or as many and a lower sum (R371). -/
def betterFit (x : Option Fit) (y : Fit) : Option Fit :=
  match x with
  | some x => if y.rows < x.rows || (y.rows == x.rows && y.sum < x.sum) then some y else some x
  | none => some y

/-- The runs of `k` clusters that qualify, by their first cluster in row-major order. -/
def runsFrom (free : Nat → Bool) (k : Nat) (groups : List (Nat × Nat × Nat)) : List Nat → List (List Nat)
  | [] => []
  | u :: us => (runAt free k groups (u :: us)).toList ++ runsFrom free k groups us

/-- The preferred placement on clusters that are free, with the lowest first cluster among equals (R371). The group of the whole
launch runs along consecutive columns as every other does, so the clusters are one run without gaps in row-major order (log 17,
DEDUCED). -/
def bestRun (s : State) (l : Launch) (free : Nat → Bool) : Option (List Nat) :=
  let runs := runsFrom free (clustersOf l.raw) (groupsOf (padLevels (levelsOf l.raw))) (userClusters (recMask l.raw))
  ((runs.map (fitOf s)).foldl betterFit none).map (·.run)

/-- Where a launch is placed (R371): away from hot clusters where that can be. -/
def choosePlace (s : State) (l : Launch) : Option (List Nat) :=
  let busy := s.launches.flatMap fun x => match x.lease with | some (cs, _) => cs | none => []
  let free (q : Nat) : Bool := !busy.contains q
  let cool (q : Nat) : Bool := free q && aget s.thermal.cls q 0 ≤ s.thermal.rankLimit.toNat
  if s.thermal.rankEn then (match bestRun s l cool with | some r => some r | none => bestRun s l free) else bestRun s l free

/-- A lease starts (R372): the ASID of its cores, then its tasks, or its saved context. -/
def startLease (s : State) (l : Launch) (clusters : List Nat) : State :=
  let slice := recSlice l.raw
  let cores := clusters.flatMap fun q => (List.range 4).map (4 * q + ·)
  let s := onLaunch s l.asid l.ver fun x => { x with
    lease := some (clusters, if slice = 0 then none else some (s.now + 1000 * slice))
    saved := none }
  let s := cores.foldl (fun s c => writeCoreReg s c 0x100 (l.asid.zeroExtend 64)) s
  match l.saved with
  | some f => restoreLaunch s l f cores
  | none => (taskSlots l.raw).foldl (fun s slot => startTask s (cores.getD (slot / 16) 0) (slot % 16) l slot) s

/-- When a launch's effective class came to be 7 (R370). -/
def aged (l : Launch) : Nat := l.elig.getD 0 + (7 - recPrio l.raw) * 2000000

/-- The pass over the ranked launches; one that has held class 7 for 2 ms stops it (R371). -/
def passOver : List Launch → State → State
  | [], s => s
  | l :: ls, s =>
    match choosePlace s l with
    | some cs => passOver ls (startLease s l cs)
    | none => if aged l + 2000000 ≤ s.now then s else passOver ls s

/-- PLACEMENT_PASS (R371). -/
def placementPassStep (s : State) : State := passOver (ranked s) s

/-! ## Leases and retirement (R373, R374) -/

/-- LEASE_EXPIRY (R373, R396). -/
def leaseExpiryStep (asid : BitVec 16) (ver : BitVec 32) (s : State) : State :=
  match findLaunch s asid ver with
  | none => s
  | some l =>
    match l.lease with
    | some (cs, some e) =>
      let renew (s : State) : State := onLaunch s asid ver fun l => { l with lease := some (cs, some (e + 1000 * recSlice l.raw)) }
      if l.preempting then s
      else if !(s.launches.any fun x => waits x && !(x.asid == asid && x.ver == ver)) then renew s
      else match takeFrame s l with
        | none => renew (s.count 5)
        | some (f, e, pa) =>
          let s := setBusy s e true
          let s := putBytes s pa (leBytes ver.toNat 8 ++ leBytes (clustersOf l.raw) 8 ++ l.raw)
          let s := onLaunch s asid ver fun l => { l with preempting := true, saved := some f, frameAt := (e, pa), savedCores := 0 }
          { s with due := s.due ++ (cs.flatMap fun q => (List.range 4).map fun p => .preemptArrival (4 * q + p)) }
    | _ => s

/-- Every task has ended and every command has completed (R374). -/
def allDone (l : Launch) : Bool := l.lease.isSome && l.cmds == 0 && (taskSlots l.raw).all l.ended.contains

/-- The launch may retire: all is done, and what its tasks stored has been performed, since the commit of a HALT is a
release of every event of its task (R193, log 60, DEDUCED); to another device at SYSTEM scope alone (R204). -/
def mayRetire (s : State) (l : Launch) : Bool :=
  allDone l && s.cores.all fun (_, k) => k.sb.all fun e =>
    e.launch != some (l.asid, l.ver) || (toDevice e && recScope l.raw != 5)

/-- A pre-emption ends without a save, since nothing of the launch is left to run: its cores go on, and its frame is free
(R374, R395; log 69, DEDUCED). -/
def endPreempt (s : State) (l : Launch) : State :=
  let mine (c : Nat) : Bool := hasCore l c
  let free (d : Strand) : Strand := { d with
    preempt := none
    phase := if d.phase == .stopped then (if d.hnd then .boundary else .idle) else d.phase }
  let s := { s with
    cores := s.cores.map fun (c, k) =>
      if mine c && k.preemptAt.isSome then
        (c, { k with preemptAt := none, strands := k.strands.map fun (t, d) => (t, free d) })
      else (c, k)
    due := s.due.filter fun p => match p with | .preemptArrival c => !mine c | _ => true
    saved := s.saved.filter fun v => !(v.asid == l.asid && some v.frame == l.saved) }
  match l.saved with
  | some _ => setBusy s l.frameAt.1 false
  | none => s

/-- RETIREMENT (R374). -/
def retirementStep (asid : BitVec 16) (ver : BitVec 32) (s : State) : State :=
  match findLaunch s asid ver with
  | none => s
  | some l =>
    let s := if l.preempting then endPreempt s l else s
    let s := { s with launches := s.launches.filter fun x => !(x.asid == asid && x.ver == ver) }
    placementPassStep (doneFill s asid l.raw 0)

/-- LAUNCH_ACCEPT (R363). -/
def execLaunchAccept (s : State) : Out := .next (match s.packet with | .launchAccept a => launchAcceptStep a s | _ => s)
/-- PREREQUISITE_ANSWER (R369). -/
def execPrerequisiteAnswer (s : State) : Out :=
  .next (match s.packet with | .prerequisiteAnswer a v p x n => prerequisiteAnswerStep a v p x n s | _ => s)
/-- NOTBEFORE_REACHED (R367). -/
def execNotbeforeReached (s : State) : Out :=
  .next (match s.packet with | .notbeforeReached a v => notbeforeReachedStep a v s | _ => s)
/-- CLASS_AGING (R370). -/
def execClassAging (s : State) : Out := .next (match s.packet with | .classAging a v => classAgingStep a v s | _ => s)
/-- PLACEMENT_PASS (R371). -/
def execPlacementPass (s : State) : Out := .next (match s.packet with | .placementPass => placementPassStep s | _ => s)
/-- LEASE_EXPIRY (R373). -/
def execLeaseExpiry (s : State) : Out := .next (match s.packet with | .leaseExpiry a v => leaseExpiryStep a v s | _ => s)
/-- RETIREMENT (R374). -/
def execRetirement (s : State) : Out := .next (match s.packet with | .retirement a v => retirementStep a v s | _ => s)

end Sys2Proof.Machine
end

