-- ==== Sys2Proof/Machine/Issue.lean ====
section
/-! DEFINITION. Which instructions are in the rotation of an issue port, which one a port picks, and when a block may commit (R56,
R375-R377, R410). -/

namespace Sys2Proof.Machine

/-! ## What may issue (R375) -/

/-- Throttling holds the ports of the core in this cycle (R410). -/
def throttled (s : State) (c : Nat) : Bool := s.cycle % 8 < aget s.thermal.lvl (coreDie c) 0

/-- The block's returning atomic, which has probed, may issue (R53, R219). -/
def atomicTurn (s : State) (c : Nat) (b : Block) (i : Nat) : Bool :=
  match b.atomic with
  | some a => a.src.idx == i && mayIssue s c b a
  | none => false

/-- The instruction of slot `i` and the word after it. -/
def instrAt (b : Block) (i : Nat) : Option Instr := (b.slots[i]?).bind fun sl => decode sl.word (argOf b i)

/-- The port that slot `i` issues on: the memory and engine port, or the arithmetic port (R375). -/
def memPort (b : Block) (i : Nat) : Bool := match b.slots[i]? with | some sl => decide (0x60 ≤ majorOf sl.word) | none => false

/-- The load in slot `i` waits for no access ahead of it. -/
def loadFree (s : State) (c t : Nat) (b : Block) (i : Nat) : Bool :=
  match b.slots[i]? with
  | none => true
  | some sl =>
    let w := sl.word
    let z := sizeBytes (.ofNat 3 (wf w 15 3))
    let off : Int := if wf w 12 3 == 1 || wf w 12 3 == 6 then 0 else (BitVec.ofNat 4 (wf w 8 4)).toInt
    match sl.a with
    | none => true
    | some a => anyNull a 0 8 ||
        !loadWaits s ⟨c, t, (s.strand c t).epoch, i, lsidOf w⟩ b (5 ≤ wf w 12 3) (offAddr (v64 a 0) off z) z

/-- The operation of a block that is no first issue: its returning atomic, or a load that is performed again. -/
def laterTurn (s : State) (c t : Nat) (b : Block) (i : Nat) : Bool :=
  atomicTurn s c b i || (againOk s c t b (readsFar s b i) i && loadFree s c t b i)

/-- A CHPOP or CHPEK fires: to fault, to claim its channel, to wait, or to read what it waited for (R51, R333). -/
def popReady (s : State) (c t : Nat) (b : Block) (i : Nat) (w : Word32) : Bool :=
  let dir := wf w 8 2
  let first := !b.waits.contains i
  mayPop s c t b (lsidOf w) &&
    ((first && !dirOk s c dir) ||
      match popPlace b dir (lsidOf w) with
      | none => false
      | some n =>
        let h := (s.core c).chan dir
        if h.claim.isSome && h.claim != some t then first
        else if h.claim.isNone && claimWaits s c t b then false
        else first || ((seen s h)[n]?).isSome)

/-- A CHPSH fires: to fault, to wait, or into a free entry (R52, R333). -/
def pushReady (s : State) (c : Nat) (b : Block) (i : Nat) (w : Word32) : Bool :=
  !b.waits.contains i || match neighbour c (wf w 8 2) with
    | some n => let h := (s.core n).chan (opposite (wf w 8 2)); decide (h.ents.length + h.resv < 8)
    | none => false

/-- The instruction in slot `i` is in the rotation: it is ready, its tokens have arrived, and it does not wait (R375). -/
def inRotation (s : State) (c t : Nat) (b : Block) (i : Nat) : Bool :=
  match b.slots[i]? with
  | none => false
  | some sl =>
    let w := sl.word
    let m := majorOf w
    if !readyAt b i then laterTurn s c t b i
    else if s.cycle < sl.from_ then false
    else if m == 0x60 then wf w 12 3 == 4 || (mayLoad s c t b (readsFar s b i) (lsidOf w) && loadFree s c t b i)
    else if (m == 0x70 || m == 0x71) && (wf w 13 5 == 1 || wf w 13 5 == 4) then mayRead s c t b (m == 0x71) (lsidOf w)
    else if m == 0x78 then
      (match wf w 15 3 with
       | 0 | 1 => popReady s c t b i w
       | 2 => pushReady s c b i w
       | _ => true)
    else m != 0x68 && m != 0x69 || b.atomic.isNone

/-- The instruction reads the Loft when it fires: LD.loc, LD.locacq and TLD.loc. -/
def readsLoft (w : Word32) : Bool :=
  (majorOf w == 0x60 && 5 ≤ wf w 12 3) || (majorOf w == 0x71 && wf w 13 5 == 1)

/-- It may issue in this cycle: a load of the Loft waits for the next cycle where a Loft has been written in this one (R180). -/
def wouldFire (s : State) (c t : Nat) (b : Block) (i : Nat) : Bool :=
  inRotation s c t b i &&
    (s.thisCycle.loft == 0 || match b.slots[i]? with | some sl => !readsLoft sl.word | none => true)

/-! ## The pick of a port (R376) -/

/-- Strands of a core from the one after `p` on, in ascending order modulo 16. -/
def strandsAfter (p : Nat) : List Nat := (List.range 16).map fun j => (p + 1 + j) % 16

/-- No commit of this cycle has written the registers of the core or of a neighbour, whose ASID a channel form reads (R100,
R333). -/
def regsSettled (s : State) (c : Nat) : Bool :=
  s.thisCycle.regs.all fun q => q != c && (List.range 4).all fun d => neighbour c d != some q

/-- The instruction that a port of a core issues: none in a cycle in which it has issued, and none before the next cycle where a
commit has written registers that it may read (R100). -/
def portPick (s : State) (c : Nat) (mem : Bool) : Option (Nat × Nat) :=
  let k := s.core c
  if s.halted || throttled s c || s.thisCycle.issues.contains (c, mem) || !regsSettled s c then none
  else (strandsAfter (if mem then k.portM else k.portA)).findSome? fun t =>
    let d := s.strand c t
    if d.yielding.isSome then none
    else d.block.bind fun b =>
      ((b.instrs.map (·.1)).find? fun i => memPort b i == mem && wouldFire s c t b i).map (t, ·)

/-- The cores' counts and pointers when strand `t` issues slot `i` on a port (R376, R405, R111). An instruction that a restart issues
again is counted once (log 7, DEDUCED). -/
def issued (s : State) (c t i : Nat) (b : Block) : State :=
  let mem := memPort b i
  let s := s.note fun o => { o with issues := (c, mem) :: o.issues }
  let s := if b.counted.contains i then s
    else (s.perf c (if mem then 3 else 2) (some t)).onBlock c t fun b => { b with counted := i :: b.counted }
  let s := s.onCore c fun k => { k with
    portA := if mem then k.portA else t
    portM := if mem then t else k.portM
    strands := k.strands.map fun (u, d) => (u, { d with yielding := d.yielding.map fun y => (y.1, y.2.filter (· != t)) }) }
  { s with cur := (c, t, i) }

/-- Strands of a core that have a ready instruction, for YIELD (R111). -/
def readyStrands (s : State) (c t : Nat) : List Nat :=
  (List.range 16).filter fun u => u != t && (match (s.strand c u).block with
    | some b => b.instrs.any fun (i, _) => inRotation s c u b i
    | none => false)

/-! ## Commit (R56) -/

/-- Every valid write slot holds a token. -/
def writesFull (b : Block) : Bool :=
  (List.range 16).all fun k => !wsValid (writeSlot b.hdr k) || (match b.wr[k]? with | some (some _) => true | _ => false)

/-- Every store-mask LSID has arrived, or its predicate did not match (R56). -/
def masksArrived (b : Block) : Bool :=
  (List.range 32).all fun l => !(hw b.hdr 1).getLsbD l || b.arrived.getLsbD l ||
    b.instrs.any fun (_, sl) => hasLsid sl.word && lsidOf sl.word == l && voidSlot sl

/-- The block is over but for room for what leaves it: nothing of it can still fire, so no fault is pending (R46), and no load of it
is left to be performed in its place (R48). -/
def blockDone (b : Block) : Bool :=
  match b.late with
  | some (_, true) => b.outst.isEmpty
  | _ =>
    writesFull b && masksArrived b && b.exit.isSome && b.outst.isEmpty &&
    (match b.atomic with | some a => a.issued | none => true) &&
    b.early.isEmpty && b.doubt.isNone && (b.instrs.all fun (i, _) => !readyAt b i)

/-- There is room for what leaves the block (R50, R297, R319). -/
def leaveRoom (s : State) (c t : Nat) (b : Block) : Bool :=
  sbRoom (s.core c) (b.held.filter fun h => takesRoom h.eff).length && cmdRoom (s.strand c t) b

/-- The block may commit (R56). -/
def mayCommit (s : State) (c t : Nat) (b : Block) : Bool :=
  blockDone b && (leaveRoom s c t b || match b.late with | some (_, true) => true | _ => false)

/-- The strand is out of the rotation and waits (R375): for a version, a channel, a matrix or engine limit, or room in the store
buffer. -/
def waitsOut (s : State) (c t : Nat) : Bool :=
  let d := s.strand c t
  match d.block with
  | some b => !(b.instrs.any fun (i, _) => inRotation s c t b i) && (!b.waits.isEmpty || (blockDone b && !leaveRoom s c t b))
  | none => d.phase == .boundary && (32 ≤ d.engOut || 32 ≤ d.matOut)

/-! ## Ports that issue before a cycle ends (R377) -/

/-- What a port of the module has to issue before the cycle ends: core, strand and slot. -/
def owed (s : State) : Option (Nat × Nat × Nat) :=
  (s.cores.filter fun x => x.2.strands.any fun y => y.2.block.isSome).findSome? fun x =>
    ([true, false].findSome? (portPick s x.1)).map fun y => (x.1, y.1, y.2)

/-- A strand's instructions and tokens stand still while cycles pass: none is in the rotation, and none has tokens under way. -/
def strandStill (s : State) (c t : Nat) : Bool :=
  match (s.strand c t).block with
  | some b => (b.instrs.all fun (i, sl) => !inRotation s c t b i && (sl.fired || sl.from_ ≤ s.cycle))
  | none => true

/-- Any number of cycles may pass at once: no port has anything to issue in them. -/
def portsStill (s : State) : Bool :=
  s.halted || s.cores.all fun (c, k) =>
    (k.chans.all fun h => h.2.ents.all fun e => e.1 < s.cycle) && k.strands.all fun y => strandStill s c y.1

end Sys2Proof.Machine
end

