-- ==== Sys2Proof/Machine/Block.lean ====
section
/-! DEFINITION. A block's life (chapter 02): fetch and predecode (R36, R37), the block-start cycle (R45), commit (R56) with
the exits and the forms that act there (R111, R339, R388-R394), and the watchdog (R54). -/

namespace Sys2Proof.Machine

/-! ## Fetch (R37) -/

/-- The pages of the chunks translate: the cause and the first failing byte otherwise. -/
def fetchPages (s : State) (c : Nat) (user : Bool) (g : Word) : Nat → Except (Nat × Word) (List (Leaf × Nat)) × State
  | 0 => (.ok [], s)
  | k + 1 =>
    let a := s.norm g
    if !fieldsOk a || isRemote a then (.error (8, g), s)
    else match xlate s g (s.core c).asid user false true (some c) with
      | (.error e, s) => (.error (e, g), s)
      | (.ok p, s) =>
        match fetchPages s c user (g + 64) k with
        | (.ok ps, s) => (.ok (p :: ps), s)
        | r => r

/-- The bytes of the chunks; an error in one is ECC_UNCORRECTABLE (R189). -/
def fetchData (s : State) (g : Word) : List (Leaf × Nat) → Except (Nat × Word) (List Byte) × State
  | [] => (.ok [], s)
  | (leaf, pa) :: ps =>
    match memOp s leaf pa (.read 0 64 false) with
    | (.data d, s) =>
      (match fetchData s (g + 64) ps with
       | (.ok ds, s) => (.ok (d ++ ds), s)
       | r => r)
    | (_, s) => (.error (0x17, g), s)

/-- Chunks of 64 bytes from `g` on. -/
def fetchChunks (s : State) (c : Nat) (user : Bool) (g : Word) (n : Nat) : Except (Nat × Word) (List Byte) × State :=
  match fetchPages s c user g n with
  | (.error e, s) => (.error e, s)
  | (.ok ps, s) => fetchData s g ps

/-- Header and body of the block at an address. -/
def fetchBlock (s : State) (c : Nat) (user : Bool) (g : Word) :
    Except (Nat × Word) (List Word32 × List Word32) × State :=
  match fetchChunks s c user g 1 with
  | (.error e, s) => (.error e, s)
  | (.ok h, s) =>
    let hdr := words32 h
    match fetchChunks s c user (g + 64) ((bodyWords hdr + 15) / 16) with
    | (.error e, s) => (.error e, s)
    | (.ok d, s) => (.ok (hdr, (words32 d).take (bodyWords hdr)), s)

/-! ## Block start (R45) -/

/-- A block as its image stands in the window. -/
def newBlock (addr : Word) (hdr body : List Word32) : Block :=
  let firsts := (firstWords body).map (·.1)
  { addr := addr, hdr := hdr
    slots := body.zipIdx.map fun (w, i) => ⟨w, none, none, none, !firsts.contains i, 0⟩
    wr := List.replicate 16 none, arrived := 0, held := [], outst := [], loads := [], early := [], guess := [], counted := []
    doubt := none, atomic := none, exit := none, irrev := false, late := none, watch := 0, waits := [], claims := [], resv := [], nf := false
    sysw := [], forms := [], snews := [], starting := some [] }

/-- The token of a read slot (R42). -/
def readToken (d : Strand) (x : Nat) : Token :=
  if rsClass x == 0 then dTok (d.g.getD (rsReg x) 0).toNat else ⟨d.v.getD (rsReg x) 0, 0⟩

/-- A form without operands fires at block start (R85). -/
def startForm (i : Instr) (s : State) : State :=
  match i with
  | .br pr _ off => brStep pr off s
  | .scall pr _ n => scallStep pr n s
  | .halt pr _ => haltStep pr s
  | .yield pr _ off => yieldStep pr off s
  | .hret pr _ => hretStep pr s
  | .tret pr _ => tretStep pr s
  | .link pr imm t0 => linkStep pr imm t0 s
  | .genc pr sh imm t0 => gencStep pr sh imm t0 s
  | .nul pr sh t0 => nulStep pr sh t0 s
  | .viota pr sh imm t0 => viotaStep pr sh imm t0 s
  | .sysrd pr imm t0 => sysrdStep pr imm t0 s
  | .fenceAcq pr lsid scope => fenceStep 0 pr lsid scope s
  | .fenceRel pr lsid scope => fenceStep 1 pr lsid scope s
  | .fenceAr pr lsid scope => fenceStep 2 pr lsid scope s
  | .chpop pr lsid dir _ => chpopStep pr lsid dir s
  | .chpek pr lsid dir _ => chpekStep pr lsid dir s
  | .mcfg pr lsid arg => mcfgStep pr lsid arg s
  | .mswap pr lsid arg => mswapStep pr lsid arg s
  | .mzero pr lsid _ arg => mzeroStep pr lsid arg s
  | .sbld pr lsid budget arg => sbldStep pr lsid budget arg s
  | .trap pr arg => trapStep pr arg s
  | .wfi pr arg => wfiStep pr arg s
  | .align pr _ => alignStep pr s
  | .dbgbrk pr arg => dbgbrkStep pr arg s
  | _ => s

/-- The forms of a body that fire at block start, in body order: of two exits that fire in this cycle the later in the body is
the second (R54; log 70, DESIGN CHOICE). -/
def fireStarts (c t : Nat) (body : List Word32) (s : State) : State :=
  (firstWords body).foldl (fun s (i, w) =>
    if !firesAtStart w then s
    else match decode w (body.getD (i + 1) 0) with
      | some x => startForm x { s with cur := (c, t, i) }
      | none => s) s

/-- The block-start cycle of block `b`: read slots, the forms that fire at once, and what they detect together (R45, R46). -/
def startBlock (s : State) (c t : Nat) (b : Block) : State :=
  let d := s.strand c t
  let s := s.onStrand c t fun d => { d with phase := .running, block := some b }
  let s := (List.range 16).foldl (fun s k =>
    let x := readSlot b.hdr k
    if rsValid x then deliver s c t (readToken d x) [rsTarget x] else s) s
  let s := fireStarts c t (b.slots.map (·.word)) s
  match (s.strand c t).block with
  | none => s
  | some b =>
    match firstDetection (b.starting.getD []) with
    | some r => preciseFault s c t r
    | none => s.onBlock c t fun b => { b with starting := none }

/-- The encoding version that a strand's blocks decode under: the launch's on a strand that holds a task (R86), and 3 on any
other; a handler's blocks have that of their strand (log 1, DESIGN CHOICE). -/
def evOf (d : Strand) : Nat := if d.live then d.ev else 3

/-- A fault of the fetch or predecode of the block at BPC (R37). -/
def fetchFault (s : State) (c t cause : Nat) (tval : Word) : State :=
  let bpc := (s.strand c t).bpc
  preciseFault s c t { cause := .ofNat 8 cause, sub := 0, tval := tval, tblk := bpc, tlsid := 0, resume := bpc }

/-- A block is fetched; it is one fetch with another of the cluster for the same address in this cycle (R31, R405). -/
def noteFetch (s : State) (c t : Nat) : State :=
  let x := (c / 4, (s.core c).asid, (s.strand c t).bpc)
  if s.thisCycle.fetches.contains x then s.perf c 9 (some t) else s.note fun o => { o with fetches := x :: o.fetches }

/-- BLOCK_FETCH (R37): at a boundary the strand stops for a pre-empt, takes a trap, or fetches and starts the block at
BPC. A message handler that has started runs its first block (R338). -/
def blockFetchStep (c t : Nat) (s : State) : State :=
  let d := s.strand c t
  if preempted d then stopStrand s c t
  else if d.phase != .entering && (nextTrap (s.core c).priomask d).isSome then takeTrap s c t
  else
    let user := !statusMode d.status
    match fetchBlock (noteFetch s c t) c user d.bpc with
    | (.error (k, g), s) => fetchFault s c t k g
    | (.ok (hdr, body), s) =>
      match predecode (evOf d) user hdr body with
      | some (k, v) => fetchFault s c t k (.ofNat 64 v)
      | none => startBlock s c t (newBlock d.bpc hdr body)

/-! ## RESULT_RETURN (R43) -/

/-- The shape in which PR 01 gates a returned token (R41, R212, R259). -/
def retShape (w : Word32) : BitVec 3 :=
  if majorOf w == 0x68 then 1 else if majorOf w == 0x60 && wf w 15 3 == 4 then 2 else 0

/-- The decrement of a TLD.last whose data has returned: held, and arrived (R259). -/
def lastTld (s : State) (src : Src) (b : Block) (sl : Slot) : State :=
  let w := sl.word
  let x := v64 (sl.a.getD noTok) 0
  let put (e : Eff) : State :=
    arrive (s.onBlock src.core src.strand fun b => { b with
      held := insertHeld (s.entry src.core src.strand src.lsid src.idx e 0 []) b.held })
      src.core src.strand src.lsid
  if wf w 13 5 != 1 || !w.getLsbD 11 then s
  else if majorOf w == 0x71 then put (.ltile (bits x 32 6) (bits x 0 16) .decrement)
  else if majorOf w == 0x70 then
    match (b.outst.find? fun o => o.idx == src.idx).bind (·.ref) with
    | some r => put (.tile (.decrementAtHome ⟨r, src, 0, 0, none⟩))
    | none => s
  else s

/-- A block starts over at once, with the values that loads gave when they were performed in their place: nothing of its first
run has left it. Its claims and its watchdog count stand (R48, R46; log 7, DEDUCED). -/
def restart (s : State) (c t : Nat) (b : Block) (x : Nat × Token) : State :=
  let s := dropOps (releaseChans s c { b with claims := [] }) c t b
  let s := s.onStrand c t fun d => { d with epoch := d.epoch + 1 }
  startBlock s c t { newBlock b.addr b.hdr (b.slots.map (·.word)) with
    watch := b.watch
    counted := b.counted
    claims := b.claims.map fun y => (y.1, 0)
    guess := x :: b.guess.filter fun y => y.1 != x.1 }

/-- A fault that was in doubt is taken once no early load is left (R46; log 7, DEDUCED). -/
def settleDoubt (s : State) (c t : Nat) : State :=
  match (s.strand c t).block with
  | none => s
  | some b => match b.early, b.doubt with
    | [], some r => preciseFault s c t r
    | _, _ => s

/-- A load that was performed ahead of its place has been performed in it: the block goes on where the value is the same, and
starts over where it is not (R197). -/
def compareEarly (s : State) (src : Src) (b : Block) (old tk : Token) : State :=
  if old == tk then
    settleDoubt (s.onBlock src.core src.strand fun b => { b with
      outst := b.outst.filter fun o => o.idx != src.idx
      early := b.early.filter fun e => e.idx != src.idx }) src.core src.strand
  else restart s src.core src.strand b (src.idx, tk)

/-- Loads that went ahead of an acquire that has returned stand where it synchronises with nothing; two die-local loads keep their
order, and a load ahead of one that was early itself is performed again too (R197, R200). -/
def settleAcquire (s : State) (src : Src) (b : Block) : State :=
  let sync := (b.early.any fun e => e.idx == src.idx) || (b.outst.any fun o => o.idx == src.idx && o.sync)
  let near (i : Nat) : Bool :=
    b.loads.any fun l => l.idx == i && (l.loc || mayBeDieLocal s src.core (s.core src.core).asid l.g)
  let settled (e : Early) : Option Early :=
    match e.on with
    | none => some e
    | some l =>
      if !l.contains src.idx then some e
      else if sync || (near src.idx && near e.idx) then some { e with on := none }
      else if (l.erase src.idx).isEmpty then none
      else some { e with on := some (l.erase src.idx) }
  s.onBlock src.core src.strand fun b => { b with early := b.early.filterMap settled }

/-- A returning operation ends: its token goes to T0 of its word. -/
def endReturn (s : State) (src : Src) (b : Block) (tk : Token) : State :=
  match b.slots[src.idx]? with
  | none => s
  | some sl =>
    let tk := gateTok (prOf sl.word) (retShape sl.word) (sl.p.getD noTok) tk
    match b.early.find? fun e => e.idx == src.idx with
    | some ⟨_, some old, _⟩ => compareEarly s src b old tk
    | _ =>
      let s := lastTld (settleAcquire s src b) src b sl
      let s := s.onBlock src.core src.strand fun b => { b with
        outst := b.outst.filter fun o => o.idx != src.idx
        waits := b.waits.filter (· != src.idx)
        early := b.early.map fun e => if e.idx == src.idx then { e with val := some tk } else e }
      settleDoubt (deliver s src.core src.strand tk [.ofNat 8 (wf sl.word 0 8)]) src.core src.strand

/-- Bytes that have returned fill those a load has not been forwarded. -/
def takeBytes (got : List (Option Byte)) (off : Nat) (d : List Byte) : List (Option Byte) :=
  got.zipIdx.map fun (x, i) => if x.isNone && off ≤ i then d[i - off]? else x

/-- The result of a returning operation arrives (R43); one of a block that has ended is dropped (R55). -/
def resultReturnStep (src : Src) (r : Ret) (s : State) : State :=
  match blockOf s src with
  | none => s
  | some b =>
    match r with
    | .cause c tval => failPart s src (c, tval)
    | .passed off =>
      if b.held.any fun h => h.lsid == src.lsid then passHeld s src off 0 none
      else s.onBlock src.core src.strand fun b => { b with atomic := b.atomic.map fun a => { a with probed := true } }
    | .tok t => endReturn s src b t
    | .bytes off d =>
      match b.outst.find? fun o => o.idx == src.idx with
      | none => s
      | some o =>
        let got := takeBytes o.got off d
        if o.left ≤ 1 then
          match o.bad with
          | some x => sureFault s src x
          | none => endReturn s src b (loadTok o.z 0 noTok (got.map fun x => x.getD 0))
        else s.onBlock src.core src.strand fun b => { b with
          outst := b.outst.map fun o => if o.idx == src.idx then { o with got := got, left := o.left - 1 } else o }

/-- RESULT_RETURN (R43). -/
def execResultReturn (s : State) : Out :=
  .next (match s.packet with | .resultReturn _ src r => resultReturnStep src r s | _ => s)

/-! ## Commit (R56) -/

/-- Write slots merge into their registers (R42). -/
def mergeWrites (d : Strand) (b : Block) : Strand :=
  (List.range 16).foldl (fun d k =>
    let x := writeSlot b.hdr k
    match wsValid x, b.wr[k]? with
    | true, some (some tk) =>
      if wsClass x == 0 then
        { d with g := d.g.setIfInBounds (wsReg x) (.ofNat 64 (mergeBytes 8 (d.g.getD (wsReg x) 0).toNat tk)) }
      else { d with v := d.v.setIfInBounds (wsReg x) (.ofNat 512 (mergeBytes 64 (d.v.getD (wsReg x) 0).toNat tk)) }
    | _, _ => d) d

/-- An entry by body index, put in its place. -/
def insertIdx {α : Type} (x : Nat × α) : List (Nat × α) → List (Nat × α)
  | [] => [x]
  | y :: ys => if x.1 ≤ y.1 then x :: y :: ys else y :: insertIdx x ys
def sortIdx {α : Type} (l : List (Nat × α)) : List (Nat × α) := l.foldr insertIdx []

/-- Committed heads advance by the entries popped, and claims end (R51). -/
def endClaims (s : State) (c : Nat) (b : Block) : State :=
  b.claims.foldl (fun s (dir, n) => s.onChan c dir fun h =>
    { h with ents := h.ents.drop n, head := h.head + .ofNat 3 n, claim := none }) s

/-- The TLBINV that operand `a` of the form asks for (R394). -/
def tlbinvOf (s : State) (c : Nat) (a : Token) : Tlbinv :=
  let l0 := v64 a 0
  let l3 := v64 a 3
  { id := s.nextId, core := c, asid := l0.truncate 16, all := l0.getLsbD 16, va := bits (v64 a 1) 0 48, len := (v64 a 2).toNat
    act := bits l3 4 2, dies := l3.truncate 4, acked := 0, done := refOf (s.core c).asid (v64 a 4) }

/-- A form of major 0x7D acts at the commit of its block; WFI, ALIGN and DBGBRK act with the boundary. -/
def actForm (c t : Nat) (s : State) (f : Nat × Form) : State :=
  match f.2 with
  | .trap code => s.emit (.trapMessageAtCollector (trapMsg s c t 2 code))
  | .tlbinv a =>
    let r := tlbinvOf s c a
    let s := { s.fresh with tlbinvs := s.tlbinvs ++ [r] }
    { s with due := s.due ++ ((List.range 4).filter fun d => r.dies.getLsbD d).map fun d => .tlbinvAtDie r d }
  | .pmig a =>
    let g := v64 a 0
    s.emit (.pmigAtTranslator { asid := (v64 a 3).truncate 16, die := dieOf g, va := vaOf g, big := false, old := 0
                                new := (v64 a 1).toNat, cursor := 0, done := refOf (s.core c).asid (v64 a 2), core := c })
  | _ => s

/-- Timeouts of the block's WFIs: the shortest, 0 where none has one (R391). -/
def wfiOf (fs : List (Nat × Form)) : Option (BitVec 32) :=
  fs.foldl (fun o f => match f.2, o with
    | .wfi us, none => some us
    | .wfi us, some x => if us == 0 then some x else if x == 0 || us.toNat < x.toNat then some us else some x
    | _, o => o) none

/-- The code and body index of the block's first DBGBRK (R393). -/
def breakOf (fs : List (Nat × Form)) : Option (Nat × BitVec 16) :=
  (fs.find? fun f => match f.2 with | .dbgbrk _ => true | _ => false).bind fun f => match f.2 with
    | .dbgbrk code => some (f.1, code)
    | _ => none

/-- The traps that a commit raises, in the order of R457. `d`: the strand as the block ran, `bpc`: the next block. -/
def commitTrapsOf (d : Strand) (b : Block) (e : Exit) (bpc : Word) : List TrapRec :=
  let mk (cause : BitVec 8) (tval tblk : Word) : TrapRec := ⟨cause, 0, tval, tblk, 0, bpc⟩
  let late := match b.late with | some (r, _) => [{ r with resume := bpc }] | none => []
  let call := match e.kind with | .scall n => [mk 0x13 (n.zeroExtend 64) e.target] | _ => []
  let brk := match breakOf b.forms with
    | some (i, code) => [mk 0x14 (.ofNat 64 (code.toNat + 2^16 * i)) b.addr]
    | none => []
  let halt := e.kind == .halt
  let step := if d.status.getLsbD 2 && !statusMode d.status && call.isEmpty && brk.isEmpty && !halt then [mk 0x15 b.addr b.addr] else []
  late ++ call ++ brk ++ step

/-- A pending interrupt, which ends a WFI (R391). -/
def anyPending (d : Strand) : Bool := d.timer.isSome || d.preempt.isSome || d.warn.isSome || !d.ext.isEmpty

/-- What the exit does once BPC holds its target (R111, R339, R390). -/
def actExit (s : State) (c t : Nat) (e : Exit) : State :=
  match e.kind with
  | .yield => s.onStrand c t fun d => { d with yielding := some (s.cycle + 16, readyStrands s c t) }
  | .tret => (trapReturn s c t).onStrand c t fun d => { d with phase := if d.live || d.hnd then .boundary else .idle }
  | .hret => (s.note fun o => { o with hrets := (c, t) :: o.hrets }).onStrand c t fun d => { d with
      hnd := false
      bpc := d.rbpc.getD d.bpc
      rbpc := none
      phase := if d.rbpc.isSome then .boundary else .idle }
  | _ => s

/-- The boundary after a commit: its traps, a pre-empt, the end of the task, or a wait (R383, R391, R395, R458). -/
def boundary (s : State) (c t : Nat) (b : Block) (e : Exit) (traps : List TrapRec) : State :=
  let ends := e.kind == .halt && traps.isEmpty
  let s := if ends then s.onStrand c t fun d => { d with halting := true } else s
  let d := s.strand c t
  if preempted d then
    let s := stopStrand (s.onStrand c t fun d => { d with commitTraps := d.commitTraps ++ traps }) c t
    haltCheck s c t
  else if !traps.isEmpty then takeCommitTraps s c t traps
  else if ends then haltCheck s c t
  else if d.phase == .idle then startWaiting s c t
  else
    let s := if b.forms.any fun f => f.2 == .align then s.onStrand c t fun d => { d with aligned := some (s.cycle + 64) } else s
    match wfiOf b.forms with
    | some us =>
      if anyPending d || (nextTrap (s.core c).priomask d).isSome then s
      else s.onStrand c t fun d => { d with
        phase := .wfi (if us == 0 then none else some (s.now + 1000 * us.toNat)) us }
    | none => s

/-- An irrevocable block ends without its register writes and exit (R53): the strand traps. -/
def lateEnd (s : State) (c t : Nat) (b : Block) (r : TrapRec) : State :=
  let s := b.claims.foldl (fun s x => s.onChan c x.1 fun h => { h with claim := none }) s
  let s := (cancelSnews s b).onStrand c t fun d => { d with block := none, phase := .boundary, epoch := d.epoch + 1 }
  let r := { r with tblk := b.addr, resume := b.addr }
  if preempted (s.strand c t) then stopStrand (s.onStrand c t fun d => { d with commitTraps := d.commitTraps ++ [r] }) c t
  else takeCommitTraps s c t [r]

/-- The held effects that leave at commit: those of the partition and the confirmations of the block's Larder reservations, in
LSID order (R50, R291). -/
def leaving (s : State) (c t : Nat) (b : Block) : List Held :=
  b.snews.foldl (fun hs x => insertHeld (s.entry c t x.1 0 (.larder (.confirm x.2.1 x.2.2)) 0 []) hs) b.held

/-- The commit itself (R56), with the SYSWRs after the write slots (R103), ahead of the commit's own NF and BLOCKS (log 70,
DESIGN CHOICE). -/
def commitBlock (s : State) (c t : Nat) (b : Block) (e : Exit) : State :=
  let d := s.strand c t
  let s := s.onStrand c t fun d => mergeWrites d b
  let s := (sortIdx b.sysw).foldl (fun s w => applySyswr s c t ⟨c, t, d.epoch, w.1, 0⟩ w.2) s
  let s := if b.nf then s.onStrand c t fun d => { d with nflag := d.nflag ||| 1 } else s
  let s := releaseHeld s c t { b with held := leaving s c t b }
  let s := endClaims s c b
  let s := s.onStrand c t fun d => { d with bpc := e.target, blocks := d.blocks + 1, block := none, phase := .boundary }
  let s := actExit (s.perf c 4 (some t)) c t e
  let forms := sortIdx b.forms
  let s := forms.foldl (actForm c t) s
  boundary s c t { b with forms := forms } e (commitTrapsOf d { b with forms := forms } e (s.strand c t).bpc)

/-- BLOCK_COMMIT (R56), or the end of a block that a fault after its irrevocable point ends (R53). -/
def blockCommitStep (c t : Nat) (s : State) : State :=
  match (s.strand c t).block with
  | none => s
  | some b =>
    match b.late, b.exit with
    | some (r, true), _ => lateEnd s c t b r
    | _, some e => commitBlock s c t b e
    | _, none => s

/-- WATCHDOG_EXPIRY (R54, R53). -/
def watchdogExpiryStep (c t : Nat) (s : State) : State :=
  match (s.strand c t).block with
  | none => s
  | some b =>
    if b.irrev then lateEnd s c t b { faultRec b 6 (1 <<< 63) none with sub := 0x80 } else preciseFault s c t (faultRec b 6 0 none)

/-- YIELD_STANDOUT_END (R111). -/
def yieldStandoutEndStep (c t : Nat) (s : State) : State := s.onStrand c t fun d => { d with yielding := none }
/-- ALIGN_RELEASE (R378). -/
def alignReleaseStep (c t : Nat) (s : State) : State := s.onStrand c t fun d => { d with aligned := none }
/-- WFI_TIMEOUT (R391): TIMER becomes pending, with the WFI's ARG32. -/
def wfiTimeoutStep (c t : Nat) (s : State) : State :=
  s.onStrand c t fun d => match d.phase with
    | .wfi _ us => { d with timer := some (us.zeroExtend 64), phase := .boundary }
    | _ => d

/-- BLOCK_FETCH (R37). -/
def execBlockFetch (s : State) : Out := .next (match s.packet with | .blockFetch c t => blockFetchStep c t s | _ => s)
/-- BLOCK_COMMIT (R56). -/
def execBlockCommit (s : State) : Out := .next (match s.packet with | .blockCommit c t => blockCommitStep c t s | _ => s)
/-- WATCHDOG_EXPIRY (R54). -/
def execWatchdogExpiry (s : State) : Out :=
  .next (match s.packet with | .watchdogExpiry c t => watchdogExpiryStep c t s | _ => s)
/-- YIELD_STANDOUT_END (R111). -/
def execYieldStandoutEnd (s : State) : Out :=
  .next (match s.packet with | .yieldStandoutEnd c t => yieldStandoutEndStep c t s | _ => s)
/-- ALIGN_RELEASE (R378). -/
def execAlignRelease (s : State) : Out := .next (match s.packet with | .alignRelease c t => alignReleaseStep c t s | _ => s)
/-- WFI_TIMEOUT (R391). -/
def execWfiTimeout (s : State) : Out := .next (match s.packet with | .wfiTimeout c t => wfiTimeoutStep c t s | _ => s)

end Sys2Proof.Machine
end

