-- ==== Sys2Proof/Machine/Counters.lean ====
section
/-! DEFINITION. Time and the thermal counters (chapter 20): TIMEBASE, PTM, sensors, throttling and supply sag. -/

namespace Sys2Proof.Machine

/-! ## TIMEBASE (R400) -/

/-- The ns that slewing adds or takes in `n` ns: at most one in 2,000, 500 ppm. -/
def slewOf (s : State) (n : Nat) : Nat := min s.ptmOffset.natAbs ((s.slewTime + n) / 2000)

/-- TIMEBASE after `n` ns of its clock. -/
def passTime (s : State) (n : Nat) : State :=
  let a := slewOf s n
  let s := { s with clock := s.clock + n }
  if s.ptmOffset = 0 then { s with timebase := s.timebase + .ofNat 64 n, slewTime := 0 }
  else if 0 < s.ptmOffset then
    { s with timebase := s.timebase + .ofNat 64 (n + a), ptmOffset := s.ptmOffset - a, slewTime := (s.slewTime + n) % 2000 }
  else
    { s with timebase := s.timebase + .ofNat 64 (n - a), ptmOffset := s.ptmOffset + a, slewTime := (s.slewTime + n) % 2000 }

/-- The exchange of every 1 ms is due (R400). -/
def ptmDue (s : State) : Bool := s.ptmDone && decide (s.ptmAt + 1000000 ≤ s.clock)

/-- PTM_EXCHANGE (R400): the first one after reset steps TIMEBASE, a later one sets the offset that slewing removes; the third
failure in a row is a loss. -/
def ptmExchangeStep (host : Option Word) (s : State) : State :=
  let s := { s with ptmAt := s.clock }
  match host with
  | some h =>
    let s := { s with ptmFails := 0 }
    if s.ptmDone then { s with ptmOffset := (h - s.timebase).toInt } else { s with timebase := h, timeRead := 0, ptmDone := true }
  | none =>
    let s' := { s with ptmFails := s.ptmFails + 1 }
    if s'.ptmFails == 3 then s'.count 9 else s'

/-! ## Thermal state, throttling and supply sag (R409, R410) -/

def hottest : List Int → Int
  | [] => 0
  | [x] => x
  | x :: xs => max x (hottest xs)

/-- The thermal class of a cluster (R409). -/
def thermalClass (t : Int) : Nat := min 7 ((t - 60) / 5).toNat

/-- SENSOR_REFRESH (R409): the readings of a die's clusters, in row-major order. A hottest reading that TEMP's 8 bits cannot
hold leaves a free value there. -/
def sensorRefreshStep (die : Nat) (readings : List Int) (s : State) : State :=
  let h := hottest readings
  let (x, s) := if 0 ≤ h && h < 256 then (h.toNat, s) else s.drawBelow 256
  let cls := readings.zipIdx.foldl (fun m (t, i) => if i < 512 then aput m (die * 512 + i) (thermalClass t) else m) s.thermal.cls
  { s with thermal := { s.thermal with temp := aput s.thermal.temp die (.ofNat 8 x), cls := cls } }

/-- The update of a die's throttle level of every 10 µs is due (R410). -/
def throttleDue (s : State) (die : Nat) : Bool := decide (aget s.lvlAt die 0 + 10000 ≤ s.clock)

/-- THROTTLE_UPDATE (R410), with the power estimate in W. -/
def throttleUpdateStep (die power : Nat) (s : State) : State :=
  let t := s.thermal
  let phit : Bool := decide (t.plim.toNat < power)
  let temp := (aget t.temp die 0).toNat
  let lvl := aget t.lvl die 0
  let lvl' := if t.en && (decide (t.tlim.toNat < temp) || phit) then min 6 (lvl + 1)
    else if temp + 3 ≤ t.tlim.toNat && 100 * power ≤ 95 * t.plim.toNat then lvl - 1
    else lvl
  { s with thermal := { t with phit := phit, lvl := aput t.lvl die lvl' }, lvlAt := aput s.lvlAt die s.clock }

/-- SUPPLY_SAG (R410): the clock is stretched, which only the turns' times show; it is counted. -/
def supplySagStep (_ns : Nat) (s : State) : State :=
  ({ s with thermal := { s.thermal with sag := s.thermal.sag + 1 } } : State).count 10

/-- PTM_EXCHANGE (R400). -/
def execPtmExchange (s : State) : Out := .next (match s.packet with | .ptmExchange h => ptmExchangeStep h s | _ => s)
/-- SENSOR_REFRESH (R409). -/
def execSensorRefresh (s : State) : Out := .next (match s.packet with | .sensorRefresh d r => sensorRefreshStep d r s | _ => s)
/-- THROTTLE_UPDATE (R410). -/
def execThrottleUpdate (s : State) : Out := .next (match s.packet with | .throttleUpdate d p => throttleUpdateStep d p s | _ => s)
/-- SUPPLY_SAG (R410). -/
def execSupplySag (s : State) : Out := .next (match s.packet with | .supplySag n => supplySagStep n s | _ => s)

end Sys2Proof.Machine
end

