-- ==== Sys2Proof/Machine/Sign.lean ====
section
/-! DEFINITION. SHA-512 and the RSA-4096 signatures of boot images and attestation reports (R417, R418), as the published
standards that R3 names give them (assumption log 12). -/

namespace Sys2Proof.Machine

/-! ## SHA-512 -/

/-- The greatest `r + x` with `x < 2^n` whose `k`-th power is at most `y`, bit by bit from the highest. -/
def rootFrom (k y : Nat) : Nat → Nat → Nat
  | 0, r => r
  | n + 1, r => rootFrom k y n (if (r + 2^n)^k ≤ y then r + 2^n else r)

/-- The first 64 bits of the fraction of the `k`-th root of a number below 512. -/
def rootWord (k p : Nat) : Word := .ofNat 64 (rootFrom k (p * 2^(64 * k)) 69 0)

/-- The first 80 primes. -/
def shaPrimes : List Nat := (List.range 410).filter fun n => 2 ≤ n && (List.range n).all fun d => d < 2 || n % d != 0

/-- The round constants of SHA-512: fractions of the cube roots of the first 80 primes. -/
def shaK : List Word := shaPrimes.map (rootWord 3)

/-- The eight words of the digest under way. -/
structure ShaState where
  a : Word
  b : Word
  c : Word
  d : Word
  e : Word
  f : Word
  g : Word
  h : Word
  deriving DecidableEq, Repr

/-- The digest of no block: fractions of the square roots of the first 8 primes. -/
def shaInit : ShaState :=
  let h (j : Nat) : Word := rootWord 2 (shaPrimes.getD j 0)
  ⟨h 0, h 1, h 2, h 3, h 4, h 5, h 6, h 7⟩

/-- The number whose big-endian bytes these are. -/
def beNat (l : List Byte) : Nat := leNat l.reverse
/-- A number as `n` big-endian bytes. -/
def beBytes (x n : Nat) : List Byte := (leBytes x n).reverse

/-- A message with its padding: a multiple of 128 bytes. -/
def shaPad (m : List Byte) : List Byte :=
  m ++ [0x80] ++ List.replicate ((239 - m.length % 128) % 128) 0 ++ beBytes (8 * m.length) 16

/-- The next word of a message schedule, from the sixteen before it, newest first. -/
def shaNext (r : List Word) : Word :=
  let at' (j : Nat) : Word := r.getD j 0
  let s0 (x : Word) : Word := x.rotateRight 1 ^^^ x.rotateRight 8 ^^^ (x >>> 7)
  let s1 (x : Word) : Word := x.rotateRight 19 ^^^ x.rotateRight 61 ^^^ (x >>> 6)
  s1 (at' 1) + at' 6 + s0 (at' 14) + at' 15

/-- `n` more words of a message schedule, newest first. -/
def shaExtend : Nat → List Word → List Word
  | 0, r => r
  | n + 1, r => shaExtend n (shaNext r :: r)

/-- One round. -/
def shaRound (v : ShaState) (k w : Word) : ShaState :=
  let t1 := v.h + (v.e.rotateRight 14 ^^^ v.e.rotateRight 18 ^^^ v.e.rotateRight 41) +
    ((v.e &&& v.f) ^^^ (~~~v.e &&& v.g)) + k + w
  let t2 := (v.a.rotateRight 28 ^^^ v.a.rotateRight 34 ^^^ v.a.rotateRight 39) +
    ((v.a &&& v.b) ^^^ (v.a &&& v.c) ^^^ (v.b &&& v.c))
  ⟨t1 + t2, v.a, v.b, v.c, v.d + t1, v.e, v.f, v.g⟩

/-- One block of 128 bytes. -/
def shaBlock (v : ShaState) (blk : List Byte) : ShaState :=
  let w16 : List Word := (List.range 16).map fun j => .ofNat 64 (beNat ((blk.drop (8 * j)).take 8))
  let ws := (shaExtend 64 w16.reverse).reverse
  let u := (shaK.zip ws).foldl (fun u kw => shaRound u kw.1 kw.2) v
  ⟨v.a + u.a, v.b + u.b, v.c + u.c, v.d + u.d, v.e + u.e, v.f + u.f, v.g + u.g, v.h + u.h⟩

/-- The digest after `n` blocks more. -/
def shaBlocks : Nat → ShaState → List Byte → ShaState
  | 0, v, _ => v
  | n + 1, v, m => shaBlocks n (shaBlock v (m.take 128)) (m.drop 128)

/-- The SHA-512 digest of a message, as its 64 octets in order. -/
def sha512 (m : List Byte) : List Byte :=
  let p := shaPad m
  let v := shaBlocks (p.length / 128) shaInit p
  [v.a, v.b, v.c, v.d, v.e, v.f, v.g, v.h].flatMap fun x => beBytes x.toNat 8

/-! ## RSASSA-PSS with SHA-512, MGF1-SHA-512 and a salt of 64 bytes -/

/-- `x` to the power whose bits, the lowest first, are given, modulo `n`. -/
def powBits (n : Nat) : List Bool → Nat → Nat
  | [], _ => 1 % n
  | b :: bs, x => let y := powBits n bs (x * x % n); if b then x * y % n else y

/-- `x^e mod n` for an exponent of at most `w` bits. -/
def powMod (n e w x : Nat) : Nat := powBits n ((List.range w).map e.testBit) x

/-- `n` bytes of mask from a seed (MGF1). -/
def mgf1 (seed : List Byte) (n : Nat) : List Byte :=
  ((List.range ((n + 63) / 64)).flatMap fun j => sha512 (seed ++ beBytes j 4)).take n

/-- The digest that a salt and a message's digest give. -/
def pssHash (mHash salt : List Byte) : List Byte := sha512 (List.replicate 8 0 ++ mHash ++ salt)

/-- An encoded message with its mask taken off, or put on: 447 bytes whose highest bit is 0. -/
def pssMask (h d : List Byte) : List Byte :=
  match (d.zip (mgf1 h 447)).map fun p => p.1 ^^^ p.2 with
  | [] => []
  | x :: xs => (x &&& 0x7F) :: xs

/-- The 512 bytes that a signature of `msg` with this salt hides. -/
def pssEncode (msg salt : List Byte) : List Byte :=
  let h := pssHash (sha512 msg) salt
  pssMask h (List.replicate 382 0 ++ [1] ++ salt) ++ h ++ [0xBC]

/-- A signature of `msg` under modulus `n` and public exponent 65,537 verifies. -/
def pssVerify (modulus sig msg : List Byte) : Bool :=
  let n := beNat modulus
  let x := beNat sig
  let em := beBytes (powMod n 65537 17 x) 512
  let h := (em.drop 447).take 64
  let db := pssMask h (em.take 447)
  decide (x < n) && em.getD 511 0 == 0xBC && em.getD 0 0 &&& 0x80 == 0 &&
    db.take 383 == List.replicate 382 0 ++ [1] && pssHash (sha512 msg) (db.drop 383) == h

/-- A signature of `msg` with the device key (R418). -/
def pssSign (msg salt : List Byte) : List Byte :=
  beBytes (powMod Config.deviceModulus Config.deviceExponent 4096 (beNat (pssEncode msg salt))) 512

end Sys2Proof.Machine
end

