-- ==== Sys2Proof/Machine/Super.lean ====
section
/-! DEFINITION. What the supervisor's requests do: TLBINV at a die and its acknowledgement (R394, R205), page migration
(R273-R276), and the bound on a HELD strand (R385). -/

namespace Sys2Proof.Machine

/-! ## TLBINV -/

/-- The range of a TLBINV meets `[va, va+len)`. -/
def tlbinvMeets (t : Tlbinv) (va len : Nat) : Bool := t.len == 0 || (t.va < va + len && va < t.va + t.len)
def tlbinvAsid (t : Tlbinv) (asid : BitVec 16) : Bool := t.all || t.asid == asid
def pageLen (leaf : Leaf) : Nat := if leaf.big then 2^25 else 2^21

/-- A completion fill of TIMEBASE[39:0] or a status (R275, R394); a cause it draws is counted. -/
def countedFill (s : State) (r : Ref) (x : Nat) : State :=
  if r.ver == 0 then s
  else match fillVer s r 0 ((leBytes x 8).map some) with
    | (none, s) => s
    | (some _, s) => s.count 3

/-- A HELD strand is released (R394): it replays, takes the trap, or its task ends. -/
def releaseHeldStrand (act c : Nat) (s : State) (t : Nat) : State :=
  let d := s.strand c t
  match act with
  | 1 => s.onStrand c t fun d => { d with bpc := d.resume, phase := .boundary }
  | 2 => trapEntry s c t
      { cause := d.tcause.truncate 8, sub := 0, tval := d.tval, tblk := d.tblk, tlsid := d.tlsid.truncate 6, resume := d.tblk }
  | 3 => endTask s c t
  | _ => s

/-- The HELD strands of a core that a TLBINV names. -/
def heldStrands (s : State) (r : Tlbinv) (c : Nat) : List Nat :=
  (List.range 16).filter fun t =>
    let d := s.strand c t
    (match d.phase with | .held _ => true | _ => false) && tlbinvAsid r (s.core c).asid && tlbinvMeets r (bits d.tval 0 48) 1

/-- L1 lines of the ASID go from the cores of some dies, and fills under way are not kept. -/
def dropLines (s : State) (r : Tlbinv) (here : Nat → Bool) : State :=
  ((s.cores.map (·.1)).filter fun c => here (coreDie c)).foldl (fun s c => l1Forget s c fun a _ => tlbinvAsid r a) s

/-- TLBINV_AT_DIE (R394). -/
def tlbinvAtDieStep (r : Tlbinv) (die : Nat) (s : State) : State :=
  let s := { s with tlb := s.tlb.filter fun e => !(e.die == die && tlbinvAsid r e.asid && tlbinvMeets r e.va (pageLen e.leaf)) }
  let s := dropLines s r (· == die)
  let cores := (s.cores.map (·.1)).filter fun c => coreDie c == die
  let s := cores.foldl (fun s c => (heldStrands s r c).foldl (releaseHeldStrand r.act c) s) s
  s.emit (.tlbinvAck r.id die)

/-- TLBINV_ACK (R205, R394). After the last one no core of a targeted die holds a line that another targeted die still gave it,
and the completion version is filled. -/
def tlbinvAckStep (id die : Nat) (s : State) : State :=
  match s.tlbinvs.find? fun r => r.id == id with
  | none => s
  | some r =>
    let acked := r.acked ||| .ofNat 4 (2^die)
    if acked == r.dies then
      countedFill (dropLines { s with tlbinvs := s.tlbinvs.filter fun x => x.id != id } r fun d => r.dies.getLsbD d)
        r.done s.stamp.toNat
    else { s with tlbinvs := s.tlbinvs.map fun x => if x.id == id then { x with acked := acked } else x }

/-- An access translated under the entries of a TLBINV on a die has not been performed (R205, R225), or a page it covers is
migrating (R276). -/
def tlbinvBusy (s : State) (r : Tlbinv) (die : Nat) : Bool :=
  let hit (asid : BitVec 16) (g : Word) : Bool :=
    let g := s.norm g
    tlbinvAsid r asid && !isRemote g && dieOf g == die && tlbinvMeets r (bits g 0 48) 1
  let effHit (asid : BitVec 16) (e : Eff) (tr : List (Nat × Nat × Leaf)) : Bool :=
    !tr.isEmpty && (match effGlobal e with | some g => hit asid g || hit asid (g + .ofNat 64 (effLen e)) | none => false)
  (s.due.any fun p => match p with | .homeAccess m _ _ => hit m.asid m.g | _ => false) ||
  (s.migs.any fun m => m.die == die && tlbinvAsid r m.asid && tlbinvMeets r m.va (if m.big then 2^25 else 2^21)) ||
  s.cores.any fun (c, k) =>
    (k.sb.any fun e => effHit e.asid e.eff e.tr) ||
    (List.range 16).any fun t => match (s.strand c t).block with
      | some b => (b.held ++ (b.atomic.map (·.held)).toList).any fun h => effHit h.asid h.eff h.tr
      | none => false

/-! ## Page migration -/

/-- A table entry, as one with V = 0 where it is poisoned. -/
def entryWord (s : State) (pa : Nat) : Word := match entryAt s pa with | .ok e => e | .error _ => 0

/-- The address of the leaf that maps a VA, whatever its V (R266). -/
def leafAddr (s : State) (die : Nat) (asid : BitVec 16) (va : Nat) : Option Nat :=
  match rootOf (entryWord s (die * 2^38 + 8 * asid.toNat)) with
  | none => none
  | some root =>
    match pointerOf 16384 (entryWord s (root + 8 * (va / 2^36 % 4096))) with
    | none => none
    | some t2 =>
      let a2 := t2 + 8 * (va / 2^25 % 2048)
      if (entryWord s a2).getLsbD 1 then some a2
      else (pointerOf 128 (entryWord s a2)).map fun t3 => t3 + 8 * (va / 2^21 % 16)

/-- Status of a migration's completion (R275). -/
def migDone (s : State) (m : Migration) (status : Nat) : State := countedFill s m.done status

/-- PMIG_AT_TRANSLATOR (R274): refused, or the page is MIGRATING. -/
def pmigAtTranslatorStep (m : Migration) (s : State) : State :=
  let found := walk s m.die m.asid m.va
  let s := walked s m.die m.asid m.va
  match found with
  | .error _ => migDone s m 1
  | .ok leaf =>
    let va := pageBase leaf m.va
    let moving := s.migs.any fun x => x.die == m.die && x.asid == m.asid && x.va == va
    if leaf.host || (leaf.big && m.new % 2^25 != 0) || moving || 16 ≤ (s.migs.filter fun x => x.die == m.die).length then migDone s m 1
    else { s with migs := s.migs ++ [{ m with va := va, big := leaf.big, old := leaf.frame, cursor := 0 }] }

/-- Physical addresses of accesses under way, when the old frame's lines have all moved (R275, step 3). -/
def moveAccess (m : Migration) (pa : Nat) : Nat :=
  if m.old ≤ pa && pa < m.old + (if m.big then 2^25 else 2^21) then m.new + (pa - m.old) else pa

def moveTr (m : Migration) (tr : List (Nat × Nat × Leaf)) : List (Nat × Nat × Leaf) :=
  tr.map fun (o, pa, l) => (o, if l.host then pa else moveAccess m pa, l)

/-- Accesses that still name the old frame are forwarded to the new one. -/
def forwardAll (s : State) (m : Migration) : State :=
  let block (b : Block) : Block := { b with
    held := b.held.map fun h => { h with tr := moveTr m h.tr }
    atomic := b.atomic.map fun a => { a with held := { a.held with tr := moveTr m a.held.tr } } }
  { s with
    due := s.due.map fun p => match p with
      | .homeAccess q pa leaf => if leaf.host then p else .homeAccess q (moveAccess m pa) leaf
      | p => p
    cores := s.cores.map fun (c, k) => (c, { k with
      sb := k.sb.map fun e => { e with tr := moveTr m e.tr }
      strands := k.strands.map fun (t, d) => (t, { d with block := d.block.map block }) }) }

/-- The end of a migration (R275, steps 4 and 5): the leaf's FRAME is written unless its V is clear, the TLB entry follows,
and the record ends. -/
def endMigration (s : State) (m : Migration) : State :=
  let s := forwardAll { s with migs := s.migs.filter fun x => x != m } m
  match leafAddr s m.die m.asid m.va with
  | none => migDone s m 2
  | some a =>
    let e := physWord s a
    if poisoned s a || !e.getLsbD 0 then migDone s m 2
    else
      let frame : Word := .ofNat 64 (m.new / 2^21 * 2^21)
      let s := physWrite s a ((leBytes ((e &&& ~~~(0x7FFFFFFE00000 : Word)) ||| frame).toNat 8).map some)
      let s := { s with tlb := s.tlb.map fun x =>
        if x.die == m.die && x.asid == m.asid && x.va == m.va then { x with leaf := { x.leaf with frame := m.new } } else x }
      migDone s m 0

/-- MIGRATION_LINE_MOVE (R275): the next line of migration `k` moves, from where it stands now, with its poison mark and its place
in the coherence order; the old home drops it. -/
def migrationLineMoveStep (k : Nat) (s : State) : State :=
  match s.migs[k]? with
  | none => s
  | some m =>
    let old := m.old + m.cursor
    let new := m.new + m.cursor
    let stays := fwd s old == old
    let bad := poisoned s old
    let rels := (s.rels.filter fun e => e.1 / 128 == fwd s old / 128).map fun e => (fwd s new + e.1 % 128, e.2)
    let s := physWrite s new ((physRead s old 128).map some)
    let s := { s with poison := markLine s.poison (fwd s new / 128) bad, rels := rels.foldl (fun r e => aput r e.1 e.2) s.rels }
    let s := if stays then discardLine s old else s
    let m' := { m with cursor := m.cursor + 128 }
    let s := { s with
      migs := s.migs.set k m'
      poison := if stays then markLine s.poison (old / 128) false else s.poison }
    if m'.cursor < (if m.big then 2^25 else 2^21) then s else endMigration s m'

/-! ## HELD (R385) -/

/-- HELD_TIMEOUT (R385): after 2^22 cycles the strand restarts at RESUME. -/
def heldTimeoutStep (c t : Nat) (s : State) : State :=
  s.onStrand c t fun d => match d.phase with
    | .held _ => { d with bpc := d.resume, phase := .boundary }
    | _ => d

/-- TLBINV_AT_DIE (R394). -/
def execTlbinvAtDie (s : State) : Out := .next (match s.packet with | .tlbinvAtDie r d => tlbinvAtDieStep r d s | _ => s)
/-- TLBINV_ACK (R205). -/
def execTlbinvAck (s : State) : Out := .next (match s.packet with | .tlbinvAck i d => tlbinvAckStep i d s | _ => s)
/-- PMIG_AT_TRANSLATOR (R274). -/
def execPmigAtTranslator (s : State) : Out := .next (match s.packet with | .pmigAtTranslator m => pmigAtTranslatorStep m s | _ => s)
/-- MIGRATION_LINE_MOVE (R275). -/
def execMigrationLineMove (s : State) : Out := .next (match s.packet with | .migrationLineMove k => migrationLineMoveStep k s | _ => s)
/-- HELD_TIMEOUT (R385). -/
def execHeldTimeout (s : State) : Out := .next (match s.packet with | .heldTimeout c t => heldTimeoutStep c t s | _ => s)

end Sys2Proof.Machine
end

