-- ==== Sys2Proof/Machine/HostIf.lean ====
section
/-! DEFINITION. The host interface and bring-up (chapter 21): the window and CXL accesses, the control BAR, publications, reset
and boot, attestation. -/

namespace Sys2Proof.Machine

/-! ## Accesses of the host (R204, R411, R412) -/

/-- A range cut at the ends of lines of `z` bytes: offset in the range and length. -/
def linePieces (z a : Nat) : Nat → Nat → Nat → List (Nat × Nat)
  | 0, _, _ => []
  | k + 1, o, n =>
    if n = 0 then []
    else
      let m := min n (z - (a + o) % z)
      (o, m) :: linePieces z a k (o + m) (n - m)
/-- Cut at the lines of device memory (R183). -/
def piecesOf (a n : Nat) : List (Nat × Nat) := linePieces 128 a (n / 128 + 2) 0 n
/-- Cut at the host's lines, which device lines are made of (R411). -/
def hostPieces (a n : Nat) : List (Nat × Nat) := linePieces 64 a (n / 64 + 2) 0 n

/-- Leaf and physical address of a global address that the host names: supervisor mode, no core (R412). -/
def hostXlate (s : State) (g : Word) (asid : BitVec 16) (wr : Bool) : Option (Leaf × Nat) × State :=
  if !fieldsOk g || isRemote (s.norm g) then (none, s)
  else match xlate s g asid false wr false none with
    | (.ok x, s) => (some x, s)
    | (.error _, s) => (none, s)

/-- Bytes of a global range read for the host, `none` where a part fails. -/
def hostBytes (s : State) (g : Word) (asid : BitVec 16) : List (Nat × Nat) → Option (List Byte) × State
  | [] => (some [], s)
  | (o, n) :: ps =>
    match hostXlate s (g + .ofNat 64 o) asid false with
    | (none, s) => (none, s)
    | (some (leaf, pa), s) =>
      match memOp s leaf pa (.read 0 n false) with
      | (.data d, s) =>
        (match hostBytes s g asid ps with
         | (some ds, s) => (some (d ++ ds), s)
         | (none, s) => (none, s))
      | (_, s) => (none, s)

/-- Where the parts of a window write go; `none` where one fails translation or protection. -/
def hostPlaces (s : State) (g : Word) (asid : BitVec 16) : List (Nat × Nat) → Option (List (Leaf × Nat)) × State
  | [] => (some [], s)
  | (o, _) :: ps => match hostXlate s (g + .ofNat 64 o) asid true with
    | (some x, s) => (match hostPlaces s g asid ps with
      | (some xs, s) => (some (x :: xs), s)
      | (none, s) => (none, s))
    | (none, s) => (none, s)

/-- The parts of a write go to their places. -/
def hostPut (s : State) (d : List Byte) (parts : List ((Nat × Nat) × Leaf × Nat)) : State :=
  parts.foldl (fun s x => (memOp s x.2.1 x.2.2 (.write (((d.drop x.1.1).take x.1.2).map some))).2) s

def State.answerHost (s : State) (x : HostOut) : State := { s with out := s.out ++ [x] }

/-- The global address of a window offset (R412). -/
def windowAddr (s : State) (o : Nat) : Word := s.dev.winbase + .ofNat 64 (o % 2^36)

/-- WINDOW_READ (R412). -/
def windowReadStep (o n : Nat) (s : State) : State :=
  let g := windowAddr s o
  match hostBytes s g s.dev.winasid (piecesOf g.toNat n) with
  | (some d, s) => s.answerHost (.read d)
  | (none, s) => s.answerHost .abort

/-- WINDOW_WRITE (R412). -/
def windowWriteStep (o : Nat) (d : List Byte) (s : State) : State :=
  let g := windowAddr s o
  let ps := piecesOf g.toNat d.length
  match hostPlaces s g s.dev.winasid ps with
  | (some xs, s) => hostPut s d (ps.zip xs)
  | (none, s) => { s with dev := { s.dev with werr := true } }

/-- Bytes of a physical range read for the host, `none` where a part is no HBM or in error. -/
def cxlBytes (s : State) (pa : Nat) : List (Nat × Nat) → Option (List Byte) × State
  | [] => (some [], s)
  | (o, n) :: ps =>
    if !inHbm (pa + o) then (none, s)
    else match devOp s (pa + o) (.read 0 n false) with
      | (.data d, s) =>
        (match cxlBytes s pa ps with
         | (some ds, s) => (some (d ++ ds), s)
         | (none, s) => (none, s))
      | (_, s) => (none, s)

def cxlPut (s : State) (pa : Nat) (d : List Byte) : List (Nat × Nat) → State
  | [] => s
  | (o, n) :: ps =>
    cxlPut (if inHbm (pa + o) then (devOp s (pa + o) (.write (((d.drop o).take n).map some))).2 else s) pa d ps

/-- CXL_MEM_ACCESS (R411). -/
def cxlMemAccessStep (a : HostMem) (s : State) : State :=
  match a with
  | .load pa n => (match cxlBytes s pa (piecesOf pa n) with
    | (some d, s) => s.answerHost (.read d)
    | (none, s) => s.answerHost .abort)
  | .store pa d => cxlPut s pa d (piecesOf pa d.length)

/-- HOST_SNOOP (R204): a line held Modified is written back; the host then owns it, or both share it. -/
def hostSnoopStep (q : Snoop) (s : State) : State :=
  let line := match q with | .inv l _ => l | .data l => l
  let s := match s.agent.find? fun x => x.1 == line with
    | some (_, l) => if l.st == 3 then { s with hostMem := memPutAll s.hostMem (line * 64) (l.d.map some) } else s
    | none => s
  match q with
  | .inv _ d => { s with
      agent := adel s.agent line, hostMem := memPutAll s.hostMem (line * 64) ((d.take 64).map some)
      poison := s.poison.filter (· != hostLine (line * 64)) }
  | .data _ => { s with agent := s.agent.map fun x => if x.1 == line then (x.1, { x.2 with st := 1 }) else x }

/-! ## The control BAR (R413) -/

/-- EXTINT_WRITE (R384, R413): nothing outside a supervisor cluster. -/
def extintWriteStep (v : Word) (s : State) : State :=
  let core := bits v 32 13
  let pri := bits v 0 3
  if !isSup core then s
  else
    let s := { s with dev := { s.dev with extint := v &&& 0xF1FFFFFFFFF07 } }
    s.onStrand core (bits v 48 4) fun d => { d with ext := aput d.ext pri (v &&& 0xFFFFFF07) }

/-- ROUTE entries in a byte of the table: 2n and 2n + 1 (R413). -/
def putRoutes (s : State) (n : Nat) : List Byte → State
  | [] => s
  | b :: bs =>
    putRoutes { s with routes := aput (aput s.routes (2 * n) (b.toNat % 16)) (2 * n + 1) (b.toNat / 16) } (n + 1) bs

/-- HOST_REGISTER_WRITE (R413): an aligned write of 8 bytes. SYSNUM and ROUTE change only in stage 4. -/
def hostRegisterWriteStep (o : Nat) (v : Word) (s : State) : State :=
  let dev := s.dev
  let stage4 : Bool := dev.stage == 4 && !dev.fail
  if o = 0x00 then { s with dev := { dev with werr := dev.werr && !v.getLsbD 2 } }
  else if o = 0x08 then { s with dev := { dev with go := dev.go && v.getLsbD 1 } }
  else if o = 0x10 then
    if !stage4 then s
    else if bits v 0 7 == 0x7F then
      -- outside SYSNUM's range (R342): a free number within it
      let (x, s) := s.drawBelow 0x7F
      { s with sysnum := .ofNat 7 x }
    else { s with sysnum := .ofNat 7 (bits v 0 7) }
  else if o = 0x18 then { s with dev := { dev with winbase := 0x7F00000000000000 ||| (v &&& 0x00FFFFF000000000) } }
  else if o = 0x20 then { s with dev := { dev with winasid := v.truncate 16 } }
  else if o = 0x28 then extintWriteStep v s
  else if 0x100 ≤ o && o < 0x140 then (if stage4 then putRoutes s (o - 0x100) (leBytes v.toNat 8) else s)
  else if 0x1000 ≤ o && o < 0x1020 then
    let k := (o - 0x1000) / 8 + 1
    if bits v 0 16 == 0 then
      -- outside the range of T (R407): a free threshold within it
      let (x, s) := s.drawBelow 0xFFFF
      { s with thresholds := aput s.thresholds k (.ofNat 16 (x + 1)) }
    else { s with thresholds := aput s.thresholds k (v.truncate 16) }
  else if 0x100000 ≤ o && o < 0x200000 then
    let i := (o - 0x100000) % 128 / 8
    s.onCore ((o - 0x100000) / 128) fun k =>
      if i < 8 then
        { k with pctl := k.pctl.setIfInBounds i ((v &&& 0xFFFFFF) ||| (k.pctl.getD i 0 &&& ~~~v &&& 0x1000000)) }
      else { k with pcnt := k.pcnt.setIfInBounds (i - 8) (v.truncate 48) }
  else if 0x200000 ≤ o && o < 0x400000 then
    { s with dev := { dev with mailbox := memPutAll dev.mailbox (o - 0x200000) ((leBytes v.toNat 8).map some) } }
  else s

/-- What an aligned 8-byte read of the control BAR returns, and at the offset of a counter of 4 bytes that lies between two such
what the 4-byte read returns (R413, R404, R406, R407). -/
def hostRegisterRead (s : State) (o : Nat) : Word :=
  let dev := s.dev
  let flag (b : Bool) (n : Nat) : Nat := if b then 2^n else 0
  let pair (f : Nat → BitVec 32) (i : Nat) : Word := .ofNat 64 ((f i).toNat + 2^32 * if o % 8 = 4 then 0 else (f (i + 1)).toNat)
  let short : Bool := (0x2000 ≤ o && o < 0x2030) || (0x10000 ≤ o && o < 0x10800) || (0x11000 ≤ o && o < 0x11180) ||
    (0x12000 ≤ o && o < 0x12010)
  let errOf (kind n i : Nat) : BitVec 32 := if i < n then aget s.errs (kind * 2^16 + i) 0 else 0
  if o % 8 != 0 && !(short && o % 4 == 0) then 0
  else if o = 0x00 then .ofNat 64 (flag dev.ready 0 + flag dev.fail 1 + flag dev.werr 2 + 16 * dev.stage + 256 * dev.code)
  else if o = 0x08 then .ofNat 64 (flag dev.go 1)
  else if o = 0x10 then s.sysnum.zeroExtend 64
  else if o = 0x18 then dev.winbase
  else if o = 0x20 then dev.winasid.zeroExtend 64
  else if o = 0x28 then dev.extint
  else if o = 0x30 then .ofNat 64 (dev.pubCount.toNat + 2^32 * dev.pubLast.toNat)
  else if 0x100 ≤ o && o < 0x140 then
    .ofNat 64 (leNat ((List.range 8).map fun j =>
      let route (n : Nat) : Nat := if n == s.sysnum.toNat then 15 else aget s.routes n 15
      let n := 2 * (o - 0x100 + j)
      .ofNat 8 (route n + 16 * route (n + 1))))
  else if 0x1000 ≤ o && o < 0x1020 then .ofNat 64 (s.threshold ((o - 0x1000) / 8 + 1))
  else if 0x2000 ≤ o && o < 0x2030 then pair (fun e => aget s.events e 0) ((o - 0x2000) / 4)
  else if 0x10000 ≤ o && o < 0x10800 then pair (errOf 2 512) ((o - 0x10000) / 4)
  else if 0x11000 ≤ o && o < 0x11180 then pair (errOf 3 96) ((o - 0x11000) / 4)
  else if 0x12000 ≤ o && o < 0x12010 then pair (errOf 4 4) ((o - 0x12000) / 4)
  else if 0x100000 ≤ o && o < 0x200000 then
    let k := s.core ((o - 0x100000) / 128)
    let i := (o - 0x100000) % 128 / 8
    if i < 8 then k.pctl.getD i 0 else (k.pcnt.getD (i - 8) 0).zeroExtend 64
  else if 0x200000 ≤ o && o < 0x400000 then .ofNat 64 (leNat (memBytes dev.mailbox (o - 0x200000) 8))
  else 0

/-! ## Publications (R414, R415) -/

/-- The write is not a descriptor of R414. A NODE of SRC that holds SYSNUM is 0x7F (R173). -/
def pubBad (sysnum : BitVec 7) (d : Vec) : Bool :=
  let f (lo n : Nat) : Nat := d.toNat / 2^lo % 2^n
  f 20 12 != 0 || 7 < f 16 4 || f 124 4 != 0 || 2^24 < f 96 32 || f 204 308 != 0 || !(f 184 8 == 0x7F || f 184 8 == 0xFF || f 184 8 == sysnum.toNat)

/-- The version's bytes copied from the source, filled as they come; false where a part cannot be read. -/
def pubCopy (s : State) (r : Ref) (src : Word) : List (Nat × Nat) → Bool × State
  | [] => (true, s)
  | (o, n) :: ps =>
    match hostBytes s (src + .ofNat 64 o) r.asid [(0, n)] with
    | (none, s) => (false, s)
    | (some d, s) => match fillVer s r o (d.map some) with
      | (none, s) => pubCopy s r src ps
      | (some _, s) => (false, s)

/-- A publication's code, and what it does. -/
def publish (d : Vec) (s : State) : Nat × State :=
  let f (lo n : Nat) : Nat := d.toNat / 2^lo % 2^n
  if !s.dev.go || pubBad s.sysnum d then (4, s)
  else
    let r : Ref := ⟨.ofNat 16 (f 0 16), .ofNat 32 (f 32 32), .ofNat 32 (f 64 32)⟩
    let size := f 96 28
    let src : Word := .ofNat 64 (f 128 64)
    match createVer s r
      { size := size, pend := size, refs := f 192 12, fmt := .ofNat 4 (f 16 4), pin := false, hbm := false, proxy := none
        fork := none } with
    | .error 0xB => (1, s)
    | .error _ => (2, s)
    | .ok s => match pubCopy s r src (hostPieces src.toNat size) with
      | (true, s) => (0, s)
      | (false, s) => (3, poisonVer s r)

/-- PUBLICATION (R415). -/
def publicationStep (d : Vec) (s : State) : State :=
  let (code, s) := publish d s
  let s := { s with dev := { s.dev with pubCount := s.dev.pubCount + 1, pubLast := .ofNat 8 code } }
  if code == 0 then s else s.answerHost (.msix 2)

/-! ## Reset and boot (R416, R417) -/

/-- The parts of a boot image (R417). -/
def imgField (b : List Byte) (o n : Nat) : List Byte := (b.drop o).take n
def imgNat (b : List Byte) (o n : Nat) : Nat := leNat (imgField b o n)
def imgBody (b : List Byte) : List Byte := imgField b 1048 (imgNat b 8 8)

/-- BOOT_IMAGE_VERIFY (R417): the failure code, if it fails. -/
def verifyImage (b : List Byte) : Option Nat :=
  let slot := imgNat b 16 1
  if b.length < 1048 + imgNat b 8 8 || imgNat b 0 4 != 0x53574649 || 3 < slot || imgNat b 17 7 != 0 then some 2
  else if sha512 (imgField b 24 512) != Config.fuseDigest slot || Config.fuseRevoked slot then some 3
  else if !pssVerify (imgField b 24 512) (imgField b 536 512) (imgField b 0 536 ++ imgBody b) then some 4
  else if imgNat b 4 4 < Config.fuseMinVersion then some 5
  else none

/-- Reset (R416): every item at its reset value. Host memory is not the module's, nor an error in it; the agenda, the counters of
the model and what has left the module stay. -/
def moduleReset (s : State) : State :=
  { State.reset with
    hostMem := s.hostMem, agenda := s.agenda, draws := s.draws, nextId := s.nextId, cycle := s.cycle, sent := s.sent
    out := s.out, packet := s.packet, cur := s.cur, poison := s.poison.filter fun l => hostLine 0 ≤ l }

def setStage (s : State) (n : Nat) : State := { s with dev := { s.dev with stage := n } }

/-- A core as firmware sets it up in stage 4 (R381, R338). -/
def bootCore (c : Nat) : Core :=
  let k := { Core.reset with trapvec := Config.residentTrapBlock &&& ~~~63 }
  if isSup c then { k with htab := Config.residentHtab &&& ~~~63, hstrands := Config.residentStrands } else k

/-- Reset and boot stages 1 to 4. -/
def bootStages (hbm joints dma : Bool) (addr len : Word) (s : State) : State :=
  let s := moduleReset s
  let box := memPutAll (memPutAll [] 0 ((leBytes addr.toNat 8).map some)) 8 ((leBytes len.toNat 8).map some)
  let s := setStage { s with dev := { s.dev with mailbox := box } } 1
  if !hbm then moduleFail s 6
  else if !joints then moduleFail { s with joints := 0 } 7
  else
    let s := setStage s 2
    if !dma then moduleFail s 1
    else
      let image := memBytes s.hostMem addr.toNat len.toNat
      let s := setStage s 3
      match verifyImage image with
      | some code => moduleFail s code
      | none =>
        let s := { s with cores := (List.range 8192).map fun c => (c, bootCore c) }
        setStage { s with dev := { s.dev with
          digest := .ofNat 512 (leNat (sha512 image)), version := .ofNat 32 (imgNat image 4 4)
          mailbox := memPutAll s.dev.mailbox 0x2000 (Config.certificate.map some) } } 4

/-- DEVCTL_GO (R416): stages 5 and 6, when the firmware waits for it. -/
def devctlGoStep (ports : List Nat) (host : Option Word) (s : State) : State :=
  let waiting : Bool := s.dev.stage == 4 && !s.dev.fail
  let s := { s with dev := { s.dev with go := true } }
  if !waiting then s
  else
    let s := setStage ((ports.filter (· < 12)).foldl (fun s p => portTrainedStep p s) s) 5
    -- the one step of TIMEBASE, unless an exchange since the reset has taken it (R400)
    match host with
    | none => moduleFail s 8
    | some t =>
      let s := setStage (ptmExchangeStep (some t) s) 6
      { s with dev := { s.dev with ready := true }, out := s.out ++ [.msix 1] }

/-- ATTESTATION_REQUEST (R418): the host writes 1 at 0x140, and running firmware answers. -/
def attestationRequestStep (s : State) : State :=
  let put (s : State) (a : Nat) (d : List Byte) : State :=
    { s with dev := { s.dev with mailbox := memPutAll s.dev.mailbox a (d.map some) } }
  if s.dev.stage < 4 || s.dev.fail then put s 0x140 (leBytes 1 8)
  else
    let head := memBytes s.dev.mailbox 0x100 64 ++ leBytes s.dev.digest.toNat 64 ++ leBytes s.dev.version.toNat 8 ++
      leBytes Config.serial.toNat 8 ++ leBytes s.timebase.toNat 8
    let salt := (List.range 64).map fun j => BitVec.ofNat 8 (Config.freeNat (s.draws + j))
    put (put { s with draws := s.draws + 64 } 0x1000 (head ++ pssSign head salt)) 0x140 (leBytes 2 8)

/-! ## Steps -/

/-- WINDOW_READ (R412). -/
def execWindowRead (s : State) : Out := .next (match s.packet with | .windowRead o n => windowReadStep o n s | _ => s)
/-- WINDOW_WRITE (R412). -/
def execWindowWrite (s : State) : Out := .next (match s.packet with | .windowWrite o d => windowWriteStep o d s | _ => s)
/-- CXL_MEM_ACCESS (R411). -/
def execCxlMemAccess (s : State) : Out := .next (match s.packet with | .cxlMemAccess a => cxlMemAccessStep a s | _ => s)
/-- HOST_SNOOP (R204). -/
def execHostSnoop (s : State) : Out := .next (match s.packet with | .hostSnoop q => hostSnoopStep q s | _ => s)
/-- EXTINT_WRITE (R384). -/
def execExtintWrite (s : State) : Out := .next (match s.packet with | .extintWrite v => extintWriteStep v s | _ => s)
/-- HOST_REGISTER_WRITE (R413). -/
def execHostRegisterWrite (s : State) : Out :=
  .next (match s.packet with | .hostRegisterWrite o v => hostRegisterWriteStep o v s | _ => s)
/-- PUBLICATION (R415). -/
def execPublication (s : State) : Out := .next (match s.packet with | .publication d => publicationStep d s | _ => s)
/-- FUNDAMENTAL_RESET (R416). -/
def execFundamentalReset (s : State) : Out :=
  .next (match s.packet with | .fundamentalReset h j d a l => bootStages h j d a l s | _ => s)
/-- DEVCTL_RESET (R416). -/
def execDevctlReset (s : State) : Out :=
  .next (match s.packet with | .devctlReset h j d a l => bootStages h j d a l s | _ => s)
/-- DEVCTL_GO (R416). -/
def execDevctlGo (s : State) : Out := .next (match s.packet with | .devctlGo ps t => devctlGoStep ps t s | _ => s)
/-- ATTESTATION_REQUEST (R418). -/
def execAttestationRequest (s : State) : Out :=
  .next (match s.packet with | .attestationRequest => attestationRequestStep s | _ => s)

end Sys2Proof.Machine
end

