-- ==== Sys2Proof/Machine/Dispatch.lean ====
section
/-! DEFINITION. One arm per step of the opcode table. -/

namespace Sys2Proof.Machine

/-- One step of the opcode table. -/
def exec (i : Instr) (s : State) : Host.Outcome State Fault Refusal :=
  match i with
  | .br pr e off => Sys2Proof.Machine.execBr pr e off s
  | .bri pr e => Sys2Proof.Machine.execBri pr e s
  | .scall pr e n => Sys2Proof.Machine.execScall pr e n s
  | .halt pr e => Sys2Proof.Machine.execHalt pr e s
  | .yield pr e off => Sys2Proof.Machine.execYield pr e off s
  | .hret pr e => Sys2Proof.Machine.execHret pr e s
  | .tret pr e => Sys2Proof.Machine.execTret pr e s
  | .link pr imm t0 => Sys2Proof.Machine.execLink pr imm t0 s
  | .genc pr sh imm t0 => Sys2Proof.Machine.execGenc pr sh imm t0 s
  | .genu pr sh imm t0 => Sys2Proof.Machine.execGenu pr sh imm t0 s
  | .mov pr t1 t0 => Sys2Proof.Machine.execMov pr t1 t0 s
  | .nul pr sh t0 => Sys2Proof.Machine.execNul pr sh t0 s
  | .sel pr sh t1 t0 => Sys2Proof.Machine.execSel pr sh t1 t0 s
  | .add pr sh t1 t0 => Sys2Proof.Machine.execAdd pr sh t1 t0 s
  | .sub pr sh t1 t0 => Sys2Proof.Machine.execSub pr sh t1 t0 s
  | .mul pr sh t1 t0 => Sys2Proof.Machine.execMul pr sh t1 t0 s
  | .mulh pr sh t1 t0 => Sys2Proof.Machine.execMulh pr sh t1 t0 s
  | .mulhu pr sh t1 t0 => Sys2Proof.Machine.execMulhu pr sh t1 t0 s
  | .mulhsu pr sh t1 t0 => Sys2Proof.Machine.execMulhsu pr sh t1 t0 s
  | .div pr sh t1 t0 => Sys2Proof.Machine.execDiv pr sh t1 t0 s
  | .divu pr sh t1 t0 => Sys2Proof.Machine.execDivu pr sh t1 t0 s
  | .rem pr sh t1 t0 => Sys2Proof.Machine.execRem pr sh t1 t0 s
  | .remu pr sh t1 t0 => Sys2Proof.Machine.execRemu pr sh t1 t0 s
  | .iand pr sh t1 t0 => Sys2Proof.Machine.execIand pr sh t1 t0 s
  | .ior pr sh t1 t0 => Sys2Proof.Machine.execIor pr sh t1 t0 s
  | .ixor pr sh t1 t0 => Sys2Proof.Machine.execIxor pr sh t1 t0 s
  | .andn pr sh t1 t0 => Sys2Proof.Machine.execAndn pr sh t1 t0 s
  | .orn pr sh t1 t0 => Sys2Proof.Machine.execOrn pr sh t1 t0 s
  | .shl pr sh t1 t0 => Sys2Proof.Machine.execShl pr sh t1 t0 s
  | .shr pr sh t1 t0 => Sys2Proof.Machine.execShr pr sh t1 t0 s
  | .sra pr sh t1 t0 => Sys2Proof.Machine.execSra pr sh t1 t0 s
  | .rol pr sh t1 t0 => Sys2Proof.Machine.execRol pr sh t1 t0 s
  | .clz pr sh t1 t0 => Sys2Proof.Machine.execClz pr sh t1 t0 s
  | .ctz pr sh t1 t0 => Sys2Proof.Machine.execCtz pr sh t1 t0 s
  | .popc pr sh t1 t0 => Sys2Proof.Machine.execPopc pr sh t1 t0 s
  | .brev pr sh t1 t0 => Sys2Proof.Machine.execBrev pr sh t1 t0 s
  | .iabs pr sh t1 t0 => Sys2Proof.Machine.execIabs pr sh t1 t0 s
  | .sext pr sh imm t0 => Sys2Proof.Machine.execSext pr sh imm t0 s
  | .zext pr sh imm t0 => Sys2Proof.Machine.execZext pr sh imm t0 s
  | .imin pr sh t1 t0 => Sys2Proof.Machine.execImin pr sh t1 t0 s
  | .imax pr sh t1 t0 => Sys2Proof.Machine.execImax pr sh t1 t0 s
  | .minu pr sh t1 t0 => Sys2Proof.Machine.execMinu pr sh t1 t0 s
  | .maxu pr sh t1 t0 => Sys2Proof.Machine.execMaxu pr sh t1 t0 s
  | .adds pr sh t1 t0 => Sys2Proof.Machine.execAdds pr sh t1 t0 s
  | .subs pr sh t1 t0 => Sys2Proof.Machine.execSubs pr sh t1 t0 s
  | .addsu pr sh t1 t0 => Sys2Proof.Machine.execAddsu pr sh t1 t0 s
  | .subsu pr sh t1 t0 => Sys2Proof.Machine.execSubsu pr sh t1 t0 s
  | .teq pr sh t1 t0 => Sys2Proof.Machine.execTeq pr sh t1 t0 s
  | .tne pr sh t1 t0 => Sys2Proof.Machine.execTne pr sh t1 t0 s
  | .tlt pr sh t1 t0 => Sys2Proof.Machine.execTlt pr sh t1 t0 s
  | .tle pr sh t1 t0 => Sys2Proof.Machine.execTle pr sh t1 t0 s
  | .tltu pr sh t1 t0 => Sys2Proof.Machine.execTltu pr sh t1 t0 s
  | .tleu pr sh t1 t0 => Sys2Proof.Machine.execTleu pr sh t1 t0 s
  | .addi pr sh imm t0 => Sys2Proof.Machine.execAddi pr sh imm t0 s
  | .andi pr sh imm t0 => Sys2Proof.Machine.execAndi pr sh imm t0 s
  | .ori pr sh imm t0 => Sys2Proof.Machine.execOri pr sh imm t0 s
  | .xori pr sh imm t0 => Sys2Proof.Machine.execXori pr sh imm t0 s
  | .shli pr sh imm t0 => Sys2Proof.Machine.execShli pr sh imm t0 s
  | .shri pr sh imm t0 => Sys2Proof.Machine.execShri pr sh imm t0 s
  | .srai pr sh imm t0 => Sys2Proof.Machine.execSrai pr sh imm t0 s
  | .muli pr sh imm t0 => Sys2Proof.Machine.execMuli pr sh imm t0 s
  | .teqi pr sh imm t0 => Sys2Proof.Machine.execTeqi pr sh imm t0 s
  | .tnei pr sh imm t0 => Sys2Proof.Machine.execTnei pr sh imm t0 s
  | .tlti pr sh imm t0 => Sys2Proof.Machine.execTlti pr sh imm t0 s
  | .tlei pr sh imm t0 => Sys2Proof.Machine.execTlei pr sh imm t0 s
  | .tgti pr sh imm t0 => Sys2Proof.Machine.execTgti pr sh imm t0 s
  | .vperm pr sh t1 t0 => Sys2Proof.Machine.execVperm pr sh t1 t0 s
  | .vzip pr sh t1 t0 => Sys2Proof.Machine.execVzip pr sh t1 t0 s
  | .vunzip pr sh t1 t0 => Sys2Proof.Machine.execVunzip pr sh t1 t0 s
  | .vcmpr pr sh t1 t0 => Sys2Proof.Machine.execVcmpr pr sh t1 t0 s
  | .vbcast pr sh t1 t0 => Sys2Proof.Machine.execVbcast pr sh t1 t0 s
  | .vscan pr sh t1 t0 => Sys2Proof.Machine.execVscan pr sh t1 t0 s
  | .vredadd pr sh t1 t0 => Sys2Proof.Machine.execVredadd pr sh t1 t0 s
  | .vredmin pr sh t1 t0 => Sys2Proof.Machine.execVredmin pr sh t1 t0 s
  | .vredmax pr sh t1 t0 => Sys2Proof.Machine.execVredmax pr sh t1 t0 s
  | .vredor pr sh t1 t0 => Sys2Proof.Machine.execVredor pr sh t1 t0 s
  | .maskpop pr sh t1 t0 => Sys2Proof.Machine.execMaskpop pr sh t1 t0 s
  | .vext pr sh imm t0 => Sys2Proof.Machine.execVext pr sh imm t0 s
  | .vins pr sh lane t1 t0 => Sys2Proof.Machine.execVins pr sh lane t1 t0 s
  | .vslide pr sh imm t0 => Sys2Proof.Machine.execVslide pr sh imm t0 s
  | .viota pr sh imm t0 => Sys2Proof.Machine.execViota pr sh imm t0 s
  | .fadd ty pr sh t1 t0 => Sys2Proof.Machine.execFadd ty pr sh t1 t0 s
  | .fsub ty pr sh t1 t0 => Sys2Proof.Machine.execFsub ty pr sh t1 t0 s
  | .fmul ty pr sh t1 t0 => Sys2Proof.Machine.execFmul ty pr sh t1 t0 s
  | .fdiv ty pr sh t1 t0 => Sys2Proof.Machine.execFdiv ty pr sh t1 t0 s
  | .fmin ty pr sh t1 t0 => Sys2Proof.Machine.execFmin ty pr sh t1 t0 s
  | .fmax ty pr sh t1 t0 => Sys2Proof.Machine.execFmax ty pr sh t1 t0 s
  | .fcpys ty pr sh t1 t0 => Sys2Proof.Machine.execFcpys ty pr sh t1 t0 s
  | .fdot ty pr sh t1 t0 => Sys2Proof.Machine.execFdot ty pr sh t1 t0 s
  | .fscl ty pr sh t1 t0 => Sys2Proof.Machine.execFscl ty pr sh t1 t0 s
  | .fsqrt ty pr sh t1 t0 => Sys2Proof.Machine.execFsqrt ty pr sh t1 t0 s
  | .frcp ty pr sh t1 t0 => Sys2Proof.Machine.execFrcp ty pr sh t1 t0 s
  | .frsq ty pr sh t1 t0 => Sys2Proof.Machine.execFrsq ty pr sh t1 t0 s
  | .fabs ty pr sh t1 t0 => Sys2Proof.Machine.execFabs ty pr sh t1 t0 s
  | .fneg ty pr sh t1 t0 => Sys2Proof.Machine.execFneg ty pr sh t1 t0 s
  | .fexp2 ty pr sh t1 t0 => Sys2Proof.Machine.execFexp2 ty pr sh t1 t0 s
  | .flog2 ty pr sh t1 t0 => Sys2Proof.Machine.execFlog2 ty pr sh t1 t0 s
  | .fclass ty pr sh t1 t0 => Sys2Proof.Machine.execFclass ty pr sh t1 t0 s
  | .fredadd ty pr sh t1 t0 => Sys2Proof.Machine.execFredadd ty pr sh t1 t0 s
  | .nfchk ty pr sh t1 t0 => Sys2Proof.Machine.execNfchk ty pr sh t1 t0 s
  | .feq ty pr sh t1 t0 => Sys2Proof.Machine.execFeq ty pr sh t1 t0 s
  | .flt ty pr sh t1 t0 => Sys2Proof.Machine.execFlt ty pr sh t1 t0 s
  | .fle ty pr sh t1 t0 => Sys2Proof.Machine.execFle ty pr sh t1 t0 s
  | .fun ty pr sh t1 t0 => Sys2Proof.Machine.execFun ty pr sh t1 t0 s
  | .ffma ty sh t1 t0 => Sys2Proof.Machine.execFfma ty sh t1 t0 s
  | .ffms ty sh t1 t0 => Sys2Proof.Machine.execFfms ty sh t1 t0 s
  | .fnfma ty sh t1 t0 => Sys2Proof.Machine.execFnfma ty sh t1 t0 s
  | .vmaxexp ty sh t1 t0 => Sys2Proof.Machine.execVmaxexp ty sh t1 t0 s
  | .cvt pr sh inf round sfmt dfmt t0 => Sys2Proof.Machine.execCvt pr sh inf round sfmt dfmt t0 s
  | .cvtB8 pr sh inf round ofmt back prec t0 => Sys2Proof.Machine.execCvtB8 pr sh inf round ofmt back prec t0 s
  | .cvtUb8 pr sh inf round ofmt back prec t0 => Sys2Proof.Machine.execCvtUb8 pr sh inf round ofmt back prec t0 s
  | .qpk4 pr t1 t0 => Sys2Proof.Machine.execQpk4 pr t1 t0 s
  | .qpk8E4m3 pr t1 t0 => Sys2Proof.Machine.execQpk8E4m3 pr t1 t0 s
  | .qpk8E5m2 pr t1 t0 => Sys2Proof.Machine.execQpk8E5m2 pr t1 t0 s
  | .qunpE2m1 pr t1 t0 => Sys2Proof.Machine.execQunpE2m1 pr t1 t0 s
  | .qunpE4m3 pr t1 t0 => Sys2Proof.Machine.execQunpE4m3 pr t1 t0 s
  | .qunpE5m2 pr t1 t0 => Sys2Proof.Machine.execQunpE5m2 pr t1 t0 s
  | .lut4 pr sh t1 t0 => Sys2Proof.Machine.execLut4 pr sh t1 t0 s
  | .i4pk pr sh t1 t0 => Sys2Proof.Machine.execI4pk pr sh t1 t0 s
  | .ld pr lsid size off t0 => Sys2Proof.Machine.execLd pr lsid size off t0 s
  | .ldAcq pr lsid size scope t0 => Sys2Proof.Machine.execLdAcq pr lsid size scope t0 s
  | .ldLast pr lsid size off t0 => Sys2Proof.Machine.execLdLast pr lsid size off t0 s
  | .ldPf pr lsid off => Sys2Proof.Machine.execLdPf pr lsid off s
  | .ldLoc pr lsid size off t0 => Sys2Proof.Machine.execLdLoc pr lsid size off t0 s
  | .ldLocacq pr lsid size t0 => Sys2Proof.Machine.execLdLocacq pr lsid size t0 s
  | .st pr lsid size off => Sys2Proof.Machine.execSt pr lsid size off s
  | .stRel pr lsid size scope => Sys2Proof.Machine.execStRel pr lsid size scope s
  | .stLoc pr lsid size off => Sys2Proof.Machine.execStLoc pr lsid size off s
  | .aaddRet wide pr lsid scope ord t0 => Sys2Proof.Machine.execAaddRet wide pr lsid scope ord t0 s
  | .aandRet wide pr lsid scope ord t0 => Sys2Proof.Machine.execAandRet wide pr lsid scope ord t0 s
  | .aorRet wide pr lsid scope ord t0 => Sys2Proof.Machine.execAorRet wide pr lsid scope ord t0 s
  | .axorRet wide pr lsid scope ord t0 => Sys2Proof.Machine.execAxorRet wide pr lsid scope ord t0 s
  | .aminRet wide pr lsid scope ord t0 => Sys2Proof.Machine.execAminRet wide pr lsid scope ord t0 s
  | .amaxRet wide pr lsid scope ord t0 => Sys2Proof.Machine.execAmaxRet wide pr lsid scope ord t0 s
  | .aminuRet wide pr lsid scope ord t0 => Sys2Proof.Machine.execAminuRet wide pr lsid scope ord t0 s
  | .amaxuRet wide pr lsid scope ord t0 => Sys2Proof.Machine.execAmaxuRet wide pr lsid scope ord t0 s
  | .axchgRet wide pr lsid scope ord t0 => Sys2Proof.Machine.execAxchgRet wide pr lsid scope ord t0 s
  | .acas wide pr lsid scope ord t0 => Sys2Proof.Machine.execAcas wide pr lsid scope ord t0 s
  | .afaddRet pr lsid scope ord t0 => Sys2Proof.Machine.execAfaddRet pr lsid scope ord t0 s
  | .aaddNr wide pr lsid scope ord off => Sys2Proof.Machine.execAaddNr wide pr lsid scope ord off s
  | .aandNr wide pr lsid scope ord off => Sys2Proof.Machine.execAandNr wide pr lsid scope ord off s
  | .aorNr wide pr lsid scope ord off => Sys2Proof.Machine.execAorNr wide pr lsid scope ord off s
  | .axorNr wide pr lsid scope ord off => Sys2Proof.Machine.execAxorNr wide pr lsid scope ord off s
  | .aminNr wide pr lsid scope ord off => Sys2Proof.Machine.execAminNr wide pr lsid scope ord off s
  | .amaxNr wide pr lsid scope ord off => Sys2Proof.Machine.execAmaxNr wide pr lsid scope ord off s
  | .aminuNr wide pr lsid scope ord off => Sys2Proof.Machine.execAminuNr wide pr lsid scope ord off s
  | .amaxuNr wide pr lsid scope ord off => Sys2Proof.Machine.execAmaxuNr wide pr lsid scope ord off s
  | .axchgNr wide pr lsid scope ord off => Sys2Proof.Machine.execAxchgNr wide pr lsid scope ord off s
  | .afaddNr pr lsid scope ord off => Sys2Proof.Machine.execAfaddNr pr lsid scope ord off s
  | .aorV pr lsid scope ord off => Sys2Proof.Machine.execAorV pr lsid scope ord off s
  | .aandV pr lsid scope ord off => Sys2Proof.Machine.execAandV pr lsid scope ord off s
  | .aaddV32 pr lsid scope ord off => Sys2Proof.Machine.execAaddV32 pr lsid scope ord off s
  | .fenceAcq pr lsid scope => Sys2Proof.Machine.execFenceAcq pr lsid scope s
  | .fenceRel pr lsid scope => Sys2Proof.Machine.execFenceRel pr lsid scope s
  | .fenceAr pr lsid scope => Sys2Proof.Machine.execFenceAr pr lsid scope s
  | .inv pr lsid => Sys2Proof.Machine.execInv pr lsid s
  | .clean pr lsid => Sys2Proof.Machine.execClean pr lsid s
  | .chpop pr lsid dir t0 => Sys2Proof.Machine.execChpop pr lsid dir t0 s
  | .chpek pr lsid dir t0 => Sys2Proof.Machine.execChpek pr lsid dir t0 s
  | .chpsh pr lsid dir => Sys2Proof.Machine.execChpsh pr lsid dir s
  | .msend pr lsid cls => Sys2Proof.Machine.execMsend pr lsid cls s
  | .sysrd pr imm t0 => Sys2Proof.Machine.execSysrd pr imm t0 s
  | .syswr pr imm => Sys2Proof.Machine.execSyswr pr imm s
  | .tnew pr lsid pin hbm arg => Sys2Proof.Machine.execTnew pr lsid pin hbm arg s
  | .tld pr lsid size last t0 arg => Sys2Proof.Machine.execTld pr lsid size last t0 arg s
  | .tst pr lsid size arg => Sys2Proof.Machine.execTst pr lsid size arg s
  | .tseal pr lsid arg => Sys2Proof.Machine.execTseal pr lsid arg s
  | .tsealEnd pr lsid arg => Sys2Proof.Machine.execTsealEnd pr lsid arg s
  | .twait pr lsid t0 arg => Sys2Proof.Machine.execTwait pr lsid t0 arg s
  | .tqry pr lsid tile t0 arg => Sys2Proof.Machine.execTqry pr lsid tile t0 arg s
  | .thold pr lsid arg => Sys2Proof.Machine.execThold pr lsid arg s
  | .trel pr lsid arg => Sys2Proof.Machine.execTrel pr lsid arg s
  | .tfork pr lsid arg => Sys2Proof.Machine.execTfork pr lsid arg s
  | .talias pr lsid arg => Sys2Proof.Machine.execTalias pr lsid arg s
  | .tguard pr lsid arg => Sys2Proof.Machine.execTguard pr lsid arg s
  | .tsub pr lsid arg => Sys2Proof.Machine.execTsub pr lsid arg s
  | .tpin pr lsid arg => Sys2Proof.Machine.execTpin pr lsid arg s
  | .tunpin pr lsid arg => Sys2Proof.Machine.execTunpin pr lsid arg s
  | .tmove pr lsid hbm arg => Sys2Proof.Machine.execTmove pr lsid hbm arg s
  | .tnewLoc pr lsid arg => Sys2Proof.Machine.execTnewLoc pr lsid arg s
  | .tldLoc pr lsid size last t0 arg => Sys2Proof.Machine.execTldLoc pr lsid size last t0 arg s
  | .tstLoc pr lsid size arg => Sys2Proof.Machine.execTstLoc pr lsid size arg s
  | .tsealLoc pr lsid fin arg => Sys2Proof.Machine.execTsealLoc pr lsid fin arg s
  | .twaitLoc pr lsid t0 arg => Sys2Proof.Machine.execTwaitLoc pr lsid t0 arg s
  | .tqryLoc pr lsid t0 arg => Sys2Proof.Machine.execTqryLoc pr lsid t0 arg s
  | .tholdLoc pr lsid arg => Sys2Proof.Machine.execTholdLoc pr lsid arg s
  | .trelLoc pr lsid arg => Sys2Proof.Machine.execTrelLoc pr lsid arg s
  | .tforkLoc pr lsid arg => Sys2Proof.Machine.execTforkLoc pr lsid arg s
  | .taliasLoc pr lsid arg => Sys2Proof.Machine.execTaliasLoc pr lsid arg s
  | .mcfg pr lsid arg => Sys2Proof.Machine.execMcfg pr lsid arg s
  | .mlds pr lsid tr arg => Sys2Proof.Machine.execMlds pr lsid tr arg s
  | .mswap pr lsid arg => Sys2Proof.Machine.execMswap pr lsid arg s
  | .mstr pr lsid arg => Sys2Proof.Machine.execMstr pr lsid arg s
  | .mzero pr lsid rows arg => Sys2Proof.Machine.execMzero pr lsid rows arg s
  | .mdrn pr lsid ofmt inf clr arg => Sys2Proof.Machine.execMdrn pr lsid ofmt inf clr arg s
  | .xcopy pr lsid arg => Sys2Proof.Machine.execXcopy pr lsid arg s
  | .xcopyExp pr lsid arg => Sys2Proof.Machine.execXcopyExp pr lsid arg s
  | .xgath pr lsid es arg => Sys2Proof.Machine.execXgath pr lsid es arg s
  | .xscat pr lsid es arg => Sys2Proof.Machine.execXscat pr lsid es arg s
  | .xfill pr lsid arg => Sys2Proof.Machine.execXfill pr lsid arg s
  | .xcan pr lsid loc arg => Sys2Proof.Machine.execXcan pr lsid loc arg s
  | .xput pr lsid arg => Sys2Proof.Machine.execXput pr lsid arg s
  | .xputEfq pr lsid fold ofmt ifmt arg => Sys2Proof.Machine.execXputEfq pr lsid fold ofmt ifmt arg s
  | .xputFold pr lsid ifmt arg => Sys2Proof.Machine.execXputFold pr lsid ifmt arg s
  | .xget pr lsid arg => Sys2Proof.Machine.execXget pr lsid arg s
  | .snew pr lsid t0 arg => Sys2Proof.Machine.execSnew pr lsid t0 arg s
  | .sarr pr lsid fin arg => Sys2Proof.Machine.execSarr pr lsid fin arg s
  | .ssetPdone pr lsid arg => Sys2Proof.Machine.execSsetPdone pr lsid arg s
  | .ssetIdle pr lsid arg => Sys2Proof.Machine.execSsetIdle pr lsid arg s
  | .ssetFinish pr lsid arg => Sys2Proof.Machine.execSsetFinish pr lsid arg s
  | .ssetPause pr lsid arg => Sys2Proof.Machine.execSsetPause pr lsid arg s
  | .ssetResume pr lsid arg => Sys2Proof.Machine.execSsetResume pr lsid arg s
  | .ssetCtx pr lsid arg => Sys2Proof.Machine.execSsetCtx pr lsid arg s
  | .ssetAttr pr lsid arg => Sys2Proof.Machine.execSsetAttr pr lsid arg s
  | .ssetTouch pr lsid arg => Sys2Proof.Machine.execSsetTouch pr lsid arg s
  | .sqry pr lsid t0 arg => Sys2Proof.Machine.execSqry pr lsid t0 arg s
  | .sbld pr lsid budget arg => Sys2Proof.Machine.execSbld pr lsid budget arg s
  | .trap pr arg => Sys2Proof.Machine.execTrap pr arg s
  | .wfi pr arg => Sys2Proof.Machine.execWfi pr arg s
  | .align pr arg => Sys2Proof.Machine.execAlign pr arg s
  | .dbgbrk pr arg => Sys2Proof.Machine.execDbgbrk pr arg s
  | .tlbinv pr arg => Sys2Proof.Machine.execTlbinv pr arg s
  | .pmig pr arg => Sys2Proof.Machine.execPmig pr arg s
  | .blockFetch => Sys2Proof.Machine.execBlockFetch s
  | .resultReturn => Sys2Proof.Machine.execResultReturn s
  | .blockCommit => Sys2Proof.Machine.execBlockCommit s
  | .watchdogExpiry => Sys2Proof.Machine.execWatchdogExpiry s
  | .storeBufferDrain => Sys2Proof.Machine.execStoreBufferDrain s
  | .homeAccess => Sys2Proof.Machine.execHomeAccess s
  | .l1Fill => Sys2Proof.Machine.execL1Fill s
  | .waymaskWrite => Sys2Proof.Machine.execWaymaskWrite s
  | .wayDrain => Sys2Proof.Machine.execWayDrain s
  | .tblkWrite => Sys2Proof.Machine.execTblkWrite s
  | .tileAck => Sys2Proof.Machine.execTileAck s
  | .tnewAtHome => Sys2Proof.Machine.execTnewAtHome s
  | .tldAtHome => Sys2Proof.Machine.execTldAtHome s
  | .tstAtHome => Sys2Proof.Machine.execTstAtHome s
  | .tsealAtHome => Sys2Proof.Machine.execTsealAtHome s
  | .twaitAtHome => Sys2Proof.Machine.execTwaitAtHome s
  | .tqryAtHome => Sys2Proof.Machine.execTqryAtHome s
  | .tholdAtHome => Sys2Proof.Machine.execTholdAtHome s
  | .decrementAtHome => Sys2Proof.Machine.execDecrementAtHome s
  | .tforkAtHome => Sys2Proof.Machine.execTforkAtHome s
  | .tforkCopyEnd => Sys2Proof.Machine.execTforkCopyEnd s
  | .taliasAtHome => Sys2Proof.Machine.execTaliasAtHome s
  | .tguardAtHome => Sys2Proof.Machine.execTguardAtHome s
  | .guardResult => Sys2Proof.Machine.execGuardResult s
  | .tsubAtHome => Sys2Proof.Machine.execTsubAtHome s
  | .tpinAtHome => Sys2Proof.Machine.execTpinAtHome s
  | .tmoveAtHome => Sys2Proof.Machine.execTmoveAtHome s
  | .waiterCancel => Sys2Proof.Machine.execWaiterCancel s
  | .readRetry => Sys2Proof.Machine.execReadRetry s
  | .watchRetry => Sys2Proof.Machine.execWatchRetry s
  | .pageWalk => Sys2Proof.Machine.execPageWalk s
  | .heldTimeout => Sys2Proof.Machine.execHeldTimeout s
  | .trapMessageAtCollector => Sys2Proof.Machine.execTrapMessageAtCollector s
  | .tlbinvAtDie => Sys2Proof.Machine.execTlbinvAtDie s
  | .tlbinvAck => Sys2Proof.Machine.execTlbinvAck s
  | .pmigAtTranslator => Sys2Proof.Machine.execPmigAtTranslator s
  | .migrationLineMove => Sys2Proof.Machine.execMigrationLineMove s
  | .engineCommandArrival => Sys2Proof.Machine.execEngineCommandArrival s
  | .engineCommandStart => Sys2Proof.Machine.execEngineCommandStart s
  | .engineSourceAnswer => Sys2Proof.Machine.execEngineSourceAnswer s
  | .engineCommandComplete => Sys2Proof.Machine.execEngineCommandComplete s
  | .engineCommandFail => Sys2Proof.Machine.execEngineCommandFail s
  | .xcanAtEngine => Sys2Proof.Machine.execXcanAtEngine s
  | .matrixCommandStart => Sys2Proof.Machine.execMatrixCommandStart s
  | .mldsFetchComplete => Sys2Proof.Machine.execMldsFetchComplete s
  | .matrixCommandComplete => Sys2Proof.Machine.execMatrixCommandComplete s
  | .matrixCommandFail => Sys2Proof.Machine.execMatrixCommandFail s
  | .linkCommandStart => Sys2Proof.Machine.execLinkCommandStart s
  | .linkCommandComplete => Sys2Proof.Machine.execLinkCommandComplete s
  | .linkCommandFail => Sys2Proof.Machine.execLinkCommandFail s
  | .writeFlit => Sys2Proof.Machine.execWriteFlit s
  | .readFlit => Sys2Proof.Machine.execReadFlit s
  | .rdataFlit => Sys2Proof.Machine.execRdataFlit s
  | .accessFlit => Sys2Proof.Machine.execAccessFlit s
  | .ackFlit => Sys2Proof.Machine.execAckFlit s
  | .failFlit => Sys2Proof.Machine.execFailFlit s
  | .noticeFlit => Sys2Proof.Machine.execNoticeFlit s
  | .decFlit => Sys2Proof.Machine.execDecFlit s
  | .creditFlit => Sys2Proof.Machine.execCreditFlit s
  | .unlistedTypeFlit => Sys2Proof.Machine.execUnlistedTypeFlit s
  | .flitCrcReplay => Sys2Proof.Machine.execFlitCrcReplay s
  | .fold => Sys2Proof.Machine.execFold s
  | .portTrained => Sys2Proof.Machine.execPortTrained s
  | .laneFailure => Sys2Proof.Machine.execLaneFailure s
  | .portDown => Sys2Proof.Machine.execPortDown s
  | .ucieReplay => Sys2Proof.Machine.execUcieReplay s
  | .ucieRetrainFailure => Sys2Proof.Machine.execUcieRetrainFailure s
  | .autoInputSeal => Sys2Proof.Machine.execAutoInputSeal s
  | .silenceTimeout => Sys2Proof.Machine.execSilenceTimeout s
  | .evictionComplete => Sys2Proof.Machine.execEvictionComplete s
  | .restoreComplete => Sys2Proof.Machine.execRestoreComplete s
  | .restoreTimeout => Sys2Proof.Machine.execRestoreTimeout s
  | .stepBuild => Sys2Proof.Machine.execStepBuild s
  | .batchSeal => Sys2Proof.Machine.execBatchSeal s
  | .launchAccept => Sys2Proof.Machine.execLaunchAccept s
  | .prerequisiteAnswer => Sys2Proof.Machine.execPrerequisiteAnswer s
  | .notbeforeReached => Sys2Proof.Machine.execNotbeforeReached s
  | .classAging => Sys2Proof.Machine.execClassAging s
  | .placementPass => Sys2Proof.Machine.execPlacementPass s
  | .leaseExpiry => Sys2Proof.Machine.execLeaseExpiry s
  | .preemptArrival => Sys2Proof.Machine.execPreemptArrival s
  | .preemptGraceExpiry => Sys2Proof.Machine.execPreemptGraceExpiry s
  | .contextSave => Sys2Proof.Machine.execContextSave s
  | .retirement => Sys2Proof.Machine.execRetirement s
  | .messageArrival => Sys2Proof.Machine.execMessageArrival s
  | .messageRetry => Sys2Proof.Machine.execMessageRetry s
  | .handlerStart => Sys2Proof.Machine.execHandlerStart s
  | .wfiTimeout => Sys2Proof.Machine.execWfiTimeout s
  | .yieldStandoutEnd => Sys2Proof.Machine.execYieldStandoutEnd s
  | .alignRelease => Sys2Proof.Machine.execAlignRelease s
  | .ptmExchange => Sys2Proof.Machine.execPtmExchange s
  | .sensorRefresh => Sys2Proof.Machine.execSensorRefresh s
  | .throttleUpdate => Sys2Proof.Machine.execThrottleUpdate s
  | .supplySag => Sys2Proof.Machine.execSupplySag s
  | .fundamentalReset => Sys2Proof.Machine.execFundamentalReset s
  | .devctlReset => Sys2Proof.Machine.execDevctlReset s
  | .devctlGo => Sys2Proof.Machine.execDevctlGo s
  | .extintWrite => Sys2Proof.Machine.execExtintWrite s
  | .publication => Sys2Proof.Machine.execPublication s
  | .windowRead => Sys2Proof.Machine.execWindowRead s
  | .windowWrite => Sys2Proof.Machine.execWindowWrite s
  | .cxlMemAccess => Sys2Proof.Machine.execCxlMemAccess s
  | .hostSnoop => Sys2Proof.Machine.execHostSnoop s
  | .attestationRequest => Sys2Proof.Machine.execAttestationRequest s
  | .hostRegisterWrite => Sys2Proof.Machine.execHostRegisterWrite s
  | .uncorrectableError => Sys2Proof.Machine.execUncorrectableError s
  | .moduleRegisterWrite => Sys2Proof.Machine.execModuleRegisterWrite s
  | .larderRequest => Sys2Proof.Machine.execLarderRequest s
  | .linkSourceAnswer => Sys2Proof.Machine.execLinkSourceAnswer s
  | .asidTeardown => Sys2Proof.Machine.execAsidTeardown s

end Sys2Proof.Machine
end

