-- ==== Sys2Proof/Machine/Turn.lean ====
section
/-! DEFINITION. Which step the machine takes next (log 2, DESIGN CHOICE): the passing of cycles and time, when each kind of step may happen,
and the order that the spec gives to steps of one source. -/

namespace Sys2Proof.Machine

/-- What a turn comes to: a step to run in a state, or a state reached without one. -/
inductive Act where
  | run (i : Instr) (s : State)
  | done (s : State)
  | stop (f : Fault)
  deriving DecidableEq, Repr

/-! ## Cycles and time (R54, R400, R403-R405) -/

/-- A strand after `n` cycles: CYCLES counts while it holds a task or runs a handler (R403), the watchdog while its block waits
for nothing (R54). -/
def tickStrand (n : Nat) (d : Strand) : Strand :=
  { d with
    cycles := if d.live || d.hnd then d.cycles + .ofNat 64 n else d.cycles
    block := d.block.map fun b => if b.waits.isEmpty then { b with watch := b.watch + n } else b }

/-- Cycles among the `n` from `at_` on that a throttle level holds (R410). -/
def heldCycles (at_ n lvl : Nat) : Nat :=
  lvl * (n / 8) + ((List.range (n % 8)).filter fun j => (at_ + j) % 8 < lvl).length

/-- What a core's counter of event `e` counts in `n` cycles (R405); the cycles of event 8 are free (log 4, DESIGN CHOICE). -/
def tickCount (s : State) (c n e smask : Nat) : Nat × State :=
  match e with
  | 1 => (n, s)
  | 6 => (if !s.halted && (s.core c).strands.any fun x => smask / 2^x.1 % 2 == 1 && waitsOut s c x.1 then n else 0, s)
  | 8 => s.drawBelow (48 * n + 1)
  | 10 => (heldCycles s.cycle n (aget s.thermal.lvl (coreDie c) 0), s)
  | _ => (0, s)

/-- Counter `j` of a core after `n` cycles (R404). -/
def tickCounter (c n : Nat) (s : State) (j : Nat) : State :=
  let p := (s.core c).pctl.getD j 0
  let (x, s) := tickCount s c n (bits p 0 8) (bits p 8 16)
  if x = 0 then s
  else s.onCore c fun k =>
    let v := (k.pcnt.getD j 0).toNat + x
    { k with
      pcnt := k.pcnt.setIfInBounds j (.ofNat 48 v)
      pctl := if v < 2^48 then k.pctl else k.pctl.setIfInBounds j (k.pctl.getD j 0 ||| 0x1000000) }

/-- `cycles` core cycles and `ns` of TIMEBASE's clock pass. The strands of a halted module stand still (R416). -/
def tick (s : State) (cycles ns : Nat) : State :=
  let s := (s.cores.map (·.1)).foldl (fun s c => (List.range 8).foldl (tickCounter c cycles) s) s
  let s := { s with
    cores := if s.halted then s.cores
      else s.cores.map fun (c, k) => (c, { k with strands := k.strands.map fun (t, d) => (t, tickStrand cycles d) })
    cycle := s.cycle + cycles }
  passTime s ns

/-! ## Issue (R375-R377) -/

/-- The instruction of slot `i` is issued, or acts again; its results arrive after `lat` cycles. -/
def issueNow (s : State) (c t i lat : Nat) : Act :=
  let s := { s with lat := lat }
  match (s.strand c t).block with
  | none => .done s
  | some b =>
    match instrAt b i with
    | none => .done s
    | some x => .run x (if readyAt b i then issued s c t i b else { s with cur := (c, t, i) })

/-- The strand's instruction at body index `i` issues, if its port picks it. -/
def issueAct (s : State) (c t i lat : Nat) : Act :=
  if 8192 ≤ c || 16 ≤ t || 64 ≤ i then .stop .noSuchUnit
  else match (s.strand c t).block with
    | none => .done s
    | some b => if portPick s c (memPort b i) == some (t, i) then issueNow s c t i lat else .done s

/-! ## Order of packets on one route (R22, R320, R337) -/

/-- Packets on one route arrive in the order in which they left. -/
inductive Route where
  /-- what a core's store buffer sends to a home, 256 for the host-attach agent, and its tile requests -/
  | tile (core home : Nat)
  /-- acknowledgements of a home slice to a core -/
  | ack (home core : Nat)
  /-- results of a home to a core -/
  | result (home core : Nat)
  /-- creations that a fork's source home sends on -/
  | fork (source home : Nat)
  /-- commands of a core to its engines -/
  | engine (core : Nat)
  /-- messages of a core to a core -/
  | msg (src dest : Nat)
  | larder (core : Nat)
  | regs (core : Nat)
  | trap (die row : Nat) (cores : BitVec 128)
  /-- invalidations and migrations of a core to a die (R271, R273) -/
  | tlbinv (core die : Nat)
  | noOrder
  deriving DecidableEq, Repr

def tileRoute (r : TReq) : Route := .tile r.src.core (homeRef r.ref)

def routeOf : Packet → Route
  | .resultReturn (some home) src _ => .result home src.core
  | .tnewAtHome r d => (match d.fork with
    | some (source, _) => .fork (homeRef source) (homeRef r.ref)
    | none => tileRoute r)
  | .tldAtHome r _ _ => tileRoute r
  | .tstAtHome r _ _ => tileRoute r
  | .tsealAtHome r _ _ _ => tileRoute r
  | .twaitAtHome r => tileRoute r
  | .tqryAtHome r _ => tileRoute r
  | .tholdAtHome r => tileRoute r
  | .decrementAtHome r => tileRoute r
  | .tforkAtHome r source _ _ _ => .tile r.src.core (homeRef source)
  | .taliasAtHome r _ _ => tileRoute r
  | .tguardAtHome r _ => tileRoute r
  | .tpinAtHome r _ => tileRoute r
  | .tmoveAtHome r _ => tileRoute r
  | .waiterCancel ref src => .tile src.core (homeRef ref)
  | .tileAck r _ => .ack (homeRef r.ref) r.src.core
  | .engineCommandArrival _ c => .engine c.src.core
  | .xcanAtEngine core _ _ _ => .engine core
  | .messageArrival m => .msg m.core m.dest
  | .homeAccess m pa leaf => (match m.orig with
    | .sb c _ _ => .tile c (homeNo leaf pa)
    | _ => .noOrder)
  | .larderRequest _ _ src _ _ _ _ => .larder src.core
  | .waymaskWrite _ _ _ src => .regs src.core
  | .moduleRegisterWrite _ _ _ src => .regs src.core
  | .trapMessageAtCollector m => .trap m.die m.row m.cores
  | .tlbinvAtDie r die => .tlbinv r.core die
  | .pmigAtTranslator m => .tlbinv m.core m.die
  | _ => .noOrder

/-- A packet that left earlier holds back another: on one route, and a refused message what its sender sends to that core in
that class (R22, R337). -/
def holdsBack (q p : Packet) : Bool :=
  match q, p with
  | .messageRetry m _ _, .messageArrival n | .messageRetry m _ _, .messageRetry n _ _ =>
    m.core == n.core && m.dest == n.dest && m.cls == n.cls
  | _, _ => routeOf p != .noOrder && routeOf q == routeOf p

/-- The packet is under way, and nothing that left earlier holds it back. -/
def isDue (s : State) (p : Packet) : Bool := s.due.contains p && (s.due.takeWhile (· != p)).all fun q => !holdsBack q p

/-! ## When a step may happen -/

/-- A strand's next boundary may be passed: it holds a task, a handler or the firmware between blocks, or in a WFI that
something ends, or is idle with a trap to take (log 64, DEDUCED), and nothing holds its fetch (R37, R100, R103, R302, R320,
R378, R391, R395). -/
def mayFetch (s : State) (c t : Nat) : Bool :=
  let d := s.strand c t
  regsSettled s c && !d.halting && d.aligned.isNone && d.ackRegs == 0 && d.engOut < 32 && d.matOut < 32 &&
  ((s.core c).preemptAt.isNone || preempted d || !statusIE d.status) &&
  (match d.phase with
   | .boundary | .entering => true
   | .idle => (nextTrap (s.core c).priomask d).isSome
   | .wfi .. => anyPending d || (nextTrap (s.core c).priomask d).isSome
   | _ => false)

/-- Another strand of the cluster asks for the same block (R378). -/
def alignMet (s : State) (c t : Nat) : Bool :=
  (List.range 4).any fun p => (List.range 16).any fun u =>
    let c' := c / 4 * 4 + p
    let d := s.strand c' u
    (c' != c || u != t) && d.phase == .boundary && d.bpc == (s.strand c t).bpc && (s.core c').asid == (s.core c).asid

/-- The cores of a launch's lease. -/
def leaseCores (l : Launch) : List Nat :=
  match l.lease with
  | some (cs, _) => cs.flatMap fun q => (List.range 4).map (4 * q + ·)
  | none => []

/-- Something that a core has sent is still on its way. -/
def coreBusy (s : State) (c : Nat) : Bool :=
  s.due.any fun p => match p with
    | .tileAck r _ => r.src.core == c
    | .tforkCopyEnd r _ _ => r.src.core == c
    | .tnewAtHome r _ => r.src.core == c
    | .homeAccess m _ _ => m.core == some c
    | .l1Fill u _ _ _ _ => u == c
    | .xcanAtEngine u _ _ _ => u == c
    | .engineCommandArrival _ x => x.src.core == c
    | .engineCommandComplete e id => (match findCmd s 0 e id with | some x => x.src.core == c | none => false)
    | .engineCommandFail e id _ _ => (match findCmd s 0 e id with | some x => x.src.core == c | none => false)
    | .linkCommandFail p id _ _ => (match findCmd s 2 p id with | some x => x.src.core == c | none => false)
    | .larderRequest _ _ src _ _ _ _ => src.core == c
    | .moduleRegisterWrite _ _ _ src => src.core == c
    | .waymaskWrite _ _ _ src => src.core == c
    | _ => false

/-- A core of a pre-empted lease has come to rest (R395). -/
def coreRests (s : State) (c : Nat) : Bool :=
  ((List.range 16).all fun t =>
    let d := s.strand c t
    d.phase == .stopped && !d.halting && d.ackTiles == 0 && d.ackRegs == 0) &&
  (s.core c).sb.isEmpty && (s.core c).mat.queue.all (fun x => !x.run) &&
  (s.engine (engineOf c)).all (fun x => !(x.src.core == c && (x.run || x.failed.isSome))) &&
  ((List.range 12).all fun p => (s.port p).cmds.all fun x => !(x.src.core == c && (x.run || x.failed.isSome))) && !coreBusy s c

/-- The context unit may save the core (R395). -/
def maySave (s : State) (c : Nat) : Bool :=
  match launchOn s c with
  | none => false
  | some l => l.preempting && !allDone l && (s.core c).preemptAt.isSome &&
      (leaseCores l).all fun q => !s.due.contains (.preemptArrival q) && ((s.core q).preemptAt.isNone || coreRests s q)

/-- A command's core is not being pre-empted: its queued commands may start (R316, R340, R358). -/
def coreFree (s : State) (c : Cmd) : Bool := (s.core c.src.core).preemptAt.isNone

/-- An engine may start its next command (R320). -/
def engineMayStart (s : State) (e : Nat) : Bool :=
  (match nextStart s e with | some c => coreFree s c | none => false) && ((s.engine e).filter (·.run)).length < 16
/-- A port may start its next command (R350). -/
def linkMayStart (s : State) (p : Nat) : Bool :=
  (s.port p).st != .down && (match nextLink s p with | some c => coreFree s c | none => false) &&
    ((s.port p).cmds.filter (·.run)).length < 8
/-- A matrix command may start (R302). -/
def matrixMayStart (s : State) (core id : Nat) : Bool :=
  match findCmd s 1 core id with
  | some c => !c.run && c.failed.isNone && matMayStart s core c && coreFree s c &&
      (cmdFn c != 1 || (matDesc c.a).dk != 2 || c.fetched)
  | none => false
/-- The rows of a global MLDS may be fetched (R302). -/
def matrixMayFetch (s : State) (core id : Nat) : Bool :=
  match findCmd s 1 core id with
  | some c => !c.run && c.failed.isNone && cmdFn c == 1 && (matDesc c.a).dk == 2 && !c.fetched && c.unacked == 0 &&
      matMayFetch s core c && coreFree s c
  | none => false
def matrixDone (c : Cmd) : Bool := c.run && c.failed.isNone && (List.range (matParts c)).all fun n => c.got.any fun x => x.1 == n
def engineDone (c : Cmd) : Bool := c.run && c.failed.isNone && c.parts == engParts c && c.unacked == 0
def linkDone (c : Cmd) : Bool := c.run && c.failed.isNone && c.parts == linkParts c && c.unacked == 0
/-- A parked read of a local version has its answer (R245, R326). -/
def localAnswer (s : State) (c : Cmd) : Option Answer :=
  match c.parked, engSrc c with
  | true, some e => if e.kind == 3 then lvtLook s e.core (locTile e.a) (.ofNat 16 (locVer e.a)) else none
  | _, _ => none

/-- A parked XPUT of a local version has its answer (R245, R351). -/
def linkLocalAnswer (s : State) (c : Cmd) : Option Answer :=
  match c.parked, linkWants c with
  | true, some (3, ref) => lvtLook s (endpoint (linkLocal c)).core (locTile ref) (.ofNat 16 (locVer ref))
  | _, _ => none

/-- A draining way has something to give up (R185). -/
def wayMoves (s : State) (k w : Nat) : Bool :=
  let sl := s.slice k
  sl.flush.getLsbD w && (if sl.tile.getLsbD w then !(drainable s k w).isEmpty else sl.maybe.getLsbD w)

/-- Launch version NEXTL of a lower ASID is ready to be accepted: it is readable, and no read of its record is under way. -/
def lowerReady (s : State) (asid : BitVec 16) : Bool :=
  s.slices.any fun (_, sl) => sl.vers.any fun e =>
    e.tn == 0xFFFFFFFF && e.asid.toNat < asid.toNat && e.ver.toNat == nextlOf s e.asid && ansOf e == .readable &&
      served s e.asid && !s.tags.any fun x => x.2 == .record e.asid

/-- The dispatcher may look at launch version NEXTL of an ASID: of those that are ready at once, the lowest goes first (R363). -/
def mayAccept (s : State) (asid : BitVec 16) : Bool :=
  served s asid && s.launches.length < 1024 && !lowerReady s asid

/-- Every launch that has become eligible is known as such, so that a pass ranks them all (R370, R379). -/
def passReady (s : State) : Bool :=
  (s.due.all fun p => match p with | .prerequisiteAnswer .. => false | _ => true) &&
    s.launches.all fun l => l.notBefore || s.now < recNotBefore l.raw

/-- The registers that have a step of their own (R413, R416, R418). -/
def ownRegister (o : Nat) (v : Word) : Bool :=
  (o == 0x08 && bits v 0 2 != 0) || o == 0x28 || (o == 0x200140 && v == 1)

/-- What a core does, which stands still in a halted module (R416). -/
def coreOwn : Packet → Bool
  | .blockFetch .. | .blockCommit .. | .watchdogExpiry .. | .storeBufferDrain .. | .heldTimeout .. | .matrixCommandStart ..
  | .mldsFetchComplete .. | .matrixCommandComplete .. | .preemptGraceExpiry _ | .contextSave _ | .handlerStart _
  | .wfiTimeout .. => true
  | _ => false

/-- The condition of a step that needs no packet under way. -/
def holdsNow (s : State) : Packet → Bool
  | .blockFetch c t => mayFetch s c t
  | .blockCommit c t =>
    (s.strand c t).phase == .running && aget s.thisCycle.commits c 0 ≤ t &&
      (match (s.strand c t).block with | some b => mayCommit s c t b | none => false)
  | .watchdogExpiry c t => (match (s.strand c t).block with | some b => 2^24 ≤ b.watch | none => false)
  | .storeBufferDrain c k => (match (s.core c).sb.find? fun e => e.seq == k with | some e => mayDrain s c e | none => false)
  | .wayDrain k w => wayMoves s k w
  | .heldTimeout c t => (match (s.strand c t).phase with | .held since => since + 2^22 ≤ s.cycle | _ => false)
  | .migrationLineMove k => k < s.migs.length
  | .engineCommandStart e => engineMayStart s e
  | .engineSourceAnswer e id a =>
    (match findCmd s 0 e id with | some c => localAnswer s c == some a | none => false)
  | .linkSourceAnswer p id a =>
    (match findCmd s 2 p id with | some c => linkLocalAnswer s c == some a | none => false)
  | .engineCommandComplete e id => (match findCmd s 0 e id with | some c => engineDone c | none => false)
  | .matrixCommandStart core id => matrixMayStart s core id
  | .mldsFetchComplete core id => matrixMayFetch s core id
  | .matrixCommandComplete core id => (match findCmd s 1 core id with | some c => matrixDone c | none => false)
  | .linkCommandStart p => linkMayStart s p
  | .linkCommandComplete p id => (match findCmd s 2 p id with | some c => linkDone c | none => false)
  | .silenceTimeout k => silent s (s.lentry k)
  | .evictionComplete k =>
    (s.lentry k).state == stEvicting && (match (s.lentry k).moving with | some (_, some _) => true | _ => false)
  | .restoreComplete k =>
    (s.lentry k).state == stRestoring && (match (s.lentry k).moving with | some (_, some _) => true | _ => false) && restored s k
  | .restoreTimeout k =>
    (s.lentry k).state == stRestoring && (match (s.lentry k).moving with | some (_, some t) => t + 50000 ≤ s.now | _ => false)
  | .stepBuild => (match s.builds with | b :: _ => b.start.isNone | [] => false)
  | .batchSeal => (match s.builds with | b :: _ => b.start.isSome && b.plans.isEmpty | [] => false)
  | .launchAccept asid => mayAccept s asid
  | .notbeforeReached asid ver =>
    (match findLaunch s asid ver with | some l => !l.notBefore && recNotBefore l.raw ≤ s.now | none => false)
  | .classAging asid ver => (match findLaunch s asid ver with | some l => waits l && classNow s l != l.cls | none => false)
  | .leaseExpiry asid ver =>
    (match findLaunch s asid ver with
     | some l => (match l.lease with | some (_, some e) => decide (e ≤ s.now) && !l.preempting && !allDone l | _ => false)
     | none => false)
  | .preemptGraceExpiry c =>
    (match (s.core c).preemptAt with | some a => a + 256 ≤ s.cycle | none => false) &&
      (List.range 16).any fun t => preempted (s.strand c t) && (match (s.strand c t).block with | some b => !b.irrev | none => false)
  | .contextSave c => maySave s c
  | .retirement asid ver => (match findLaunch s asid ver with | some l => mayRetire s l | none => false)
  | .handlerStart c =>
    (s.core c).preemptAt.isNone && (match (s.core c).htabRead with | some (_, none) => false | _ => true) &&
      (firstMsg (s.core c)).isSome && (List.range 16).any fun t => takesMessage s c t
  | .wfiTimeout c t => (match (s.strand c t).phase with | .wfi (some w) _ => w ≤ s.now | _ => false)
  | .yieldStandoutEnd c t => (match (s.strand c t).yielding with | some (e, l) => decide (e ≤ s.cycle) || l.isEmpty | none => false)
  | .alignRelease c t => (match (s.strand c t).aligned with | some e => decide (e ≤ s.cycle) || alignMet s c t | none => false)
  | .ptmExchange _ => ptmDue s
  | .throttleUpdate die _ => throttleDue s die
  -- what the host, the peers, the sensors and the environment do; a flit has a tag of 32 bits and at most 64 data flits (R343)
  | .writeFlit _ tag _ _ d _ => tag < 2^32 && d.length ≤ 4096
  | .rdataFlit _ tag d _ => tag < 2^32 && d.length ≤ 4096
  | .readFlit _ tag _ _ => tag < 2^32
  | .unlistedTypeFlit _ ty => !listedType ty
  | .hostRegisterWrite o v => o % 8 == 0 && !ownRegister o v
  | .devctlGo _ _ | .fundamentalReset .. | .devctlReset .. | .extintWrite _ | .publication _ | .windowRead _ _ | .windowWrite _ _
  | .cxlMemAccess _ | .hostSnoop _ | .attestationRequest | .uncorrectableError _ | .asidTeardown _
  | .sensorRefresh _ _ | .supplySag _ | .accessFlit .. | .ackFlit .. | .failFlit .. | .noticeFlit ..
  | .decFlit _ _ | .creditFlit _ _ | .flitCrcReplay _
  | .tsubAtHome _ _ _ | .portTrained _ | .laneFailure _ _ | .portDown _ | .ucieReplay _ | .ucieRetrainFailure _ => true
  | _ => false

/-- A step that needs no packet under way may happen. -/
def condition (s : State) (p : Packet) : Bool := !(s.halted && coreOwn p) && holdsNow s p

/-- A packet under way may arrive now. -/
def arrivable (s : State) : Packet → Bool
  | .trapMessageAtCollector m => collectorRoom s m
  | .placementPass => passReady s
  | .homeAccess m _ leaf => (match m.orig with
    | .load src => !(dieLocal s src.core m.g leaf && loadBehind s src)
    | _ => true)
  | .readRetry _ _ time _ | .watchRetry _ _ time _ | .messageRetry _ time _ => time ≤ s.cycle
  | .tlbinvAtDie r _ => (s.core r.core).sb.all fun e => r.id ≤ e.seq
  | .tlbinvAck id die => (match s.tlbinvs.find? fun r => r.id == id with | some r => !tlbinvBusy s r die | none => true)
  -- a command of a core that is being pre-empted goes to where the save takes it from, full or not (R319)
  | .engineCommandArrival e c => decide (((s.engine e).filter inQueue).length < 256) || !coreFree s c
  | .matrixCommandFail core id _ _ => (match findCmd s 1 core id with | some c => c.run || matMayStart s core c | none => true)
  | .launchAccept asid => mayAccept s asid
  | _ => true

/-- The units a packet names exist (R10, R26, R183, R319, R342, R277). -/
def unitsOk : Packet → Bool
  | .blockFetch c t | .blockCommit c t | .watchdogExpiry c t | .heldTimeout c t | .wfiTimeout c t | .yieldStandoutEnd c t
  | .alignRelease c t => c < 8192 && t < 16
  | .storeBufferDrain c _ | .handlerStart c | .preemptGraceExpiry c | .contextSave c | .matrixCommandStart c _
  | .mldsFetchComplete c _ | .matrixCommandComplete c _ => c < 8192
  | .wayDrain k w => k < 256 && w < 16
  | .engineCommandStart e | .engineCommandComplete e _ => e < 32
  | .linkCommandStart p | .linkCommandComplete p _ | .portTrained p | .laneFailure p _ | .portDown p | .flitCrcReplay p => p < 12
  | .ucieReplay j | .ucieRetrainFailure j | .sensorRefresh j _ | .throttleUpdate j _ => j < 4
  | .silenceTimeout k | .evictionComplete k | .restoreComplete k | .restoreTimeout k => k < 16384
  | .uncorrectableError (.loft c a) => c < 8192 && a < 0x18000
  | _ => true

/-! ## Happenings of one cycle (log 61, DESIGN CHOICE) -/

/-- How a step ranks among the writes of a cycle to a Loft (R180): 0 where it makes none, then drains, engines and links, and
the matrix unit. -/
def loftRank (s : State) : Packet → Nat
  | .storeBufferDrain c k => (match (s.core c).sb.find? fun e => e.seq == k with
    | some e => (match e.eff with
      | .store _ true _ _ | .amo _ true _ _ _ _ | .vamo _ true _ _ _ | .ltile .. => 1
      | _ => 0)
    | none => 0)
  | .engineCommandComplete _ _ | .linkCommandComplete _ _ | .rdataFlit .. => 2
  | .matrixCommandComplete _ _ => 3
  | _ => 0

/-- The request of a step at a tile's home. -/
def tileReq : Packet → Option TReq
  | .tnewAtHome r _ | .tldAtHome r _ _ | .tstAtHome r _ _ | .tsealAtHome r _ _ _ | .twaitAtHome r | .tqryAtHome r _
  | .tholdAtHome r | .decrementAtHome r | .tforkAtHome r _ _ _ _ | .taliasAtHome r _ _ | .tguardAtHome r _ | .tpinAtHome r _
  | .tmoveAtHome r _ => some r
  | _ => none

/-- How a step ranks among the accesses of a cycle at a home (R186, R254, R265): 1 for link ingress, 2 for an engine, 3 + its
number for a core, 0 for any other. -/
def homeRank (p : Packet) : Nat :=
  match tileReq p with
  | some r => 3 + r.src.core
  | none => otherRank p
where
  otherRank : Packet → Nat
    | .homeAccess m _ _ => (match m.orig, m.core with
      | .peer _ _, _ => 1
      | _, some c => 3 + c
      | _, none => 0)
    | .writeFlit .. | .readFlit .. | .accessFlit .. | .tsubAtHome .. => 1
    | _ => 0

/-- A rank comes at or after the last of its cycle. -/
def rankOk (last rank : Nat) : Bool := rank == 0 || last ≤ rank

/-- A step keeps the order of what happens in its cycle (R180, R186). After a commit that has written core registers only commits
follow, so that no check, start or trap entry of the cycle sees what it wrote (R99, R100, R381). -/
def inOrder (s : State) (p : Packet) : Bool :=
  rankOk s.thisCycle.loft (loftRank s p) && rankOk s.thisCycle.home (homeRank p) &&
    (s.thisCycle.regs.isEmpty || match p with | .blockCommit .. => true | _ => false)

/-- The commit of a block writes a register of its core (R99, R309). -/
def writesRegs (b : Block) : Bool :=
  (b.sysw.any fun w => 0x100 ≤ w.2.1.toNat && w.2.1.toNat < 0x200) ||
  b.held.any fun h => match h.eff with | .cmd w _ _ _ => majorOf w == 0x74 && wf w 13 5 == 0 | _ => false

/-- What a step is in its cycle. -/
def noted (s : State) (p : Packet) : State :=
  let o := s.thisCycle
  let o := { o with loft := max o.loft (loftRank s p), home := max o.home (homeRank p) }
  { s with order := match p with
    | .blockCommit c t => { o with
        commits := aput o.commits c (t + 1)
        regs := if ((s.strand c t).block.map writesRegs).getD false then c :: o.regs else o.regs }
    | _ => o }

/-- A step that is no instruction happens, if it may. -/
def eventAct (s : State) (p : Packet) : Act :=
  if !unitsOk p then .stop .noSuchUnit
  else if !inOrder s p then .done s
  else if isDue s p && arrivable s p then .run (stepOf p) (noted { s with due := s.due.erase p, packet := p, lat := 0 } p)
  else if condition s p then .run (stepOf p) (noted { s with packet := p, lat := 0 } p)
  else .done s

/-! ## Parts of commands -/

/-- Command `id` may perform part `n` (R302, R324, R326, R351). -/
def mayProgress (s : State) (kind u id n : Nat) : Bool :=
  match findCmd s kind u id with
  | none => false
  | some c =>
    c.run && c.failed.isNone &&
      (match kind with
       | 0 =>
         let far : Bool := match engSrc c with | some e => e.kind == 0 && isRemote (s.norm e.a) | none => false
         n < engParts c && !c.wrote.contains n && (cmdFn c != 2 || !far || c.unacked == 0) && (!readsProxy s c || c.fetched)
       | 1 => n < matParts c && !c.got.any fun x => x.1 == n
       | _ =>
         let proxy (ref : Word) : Bool := match findVer s (refOf c.asid ref) with | some v => (ownerOf s v).proxy | none => false
         let e := endpoint (linkLocal c)
         c.parts < linkParts c &&
           (if (linkForm c).get then n < linkParts c && !c.wrote.contains n && (linkForm c).n ≤ c.buf.length
            else (!(linkFar s c || (e.kind == 2 && proxy e.a)) || c.fetched) &&
              (!(linkForm c).efq || !proxy (residOf c.a).rin || c.rfetched)))

/-- The part of a command in its cycle: the last rank of a Loft write and of an access at a home. -/
def partNoted (s : State) (loft home : Nat) : State :=
  s.note fun o => { o with loft := max o.loft loft, home := max o.home home }
/-- A part keeps the order of its cycle, and its checks see no register that a commit of this cycle has written (R99). -/
def partInOrder (s : State) (loft home : Nat) : Bool :=
  s.thisCycle.regs.isEmpty && rankOk s.thisCycle.loft loft && rankOk s.thisCycle.home home

/-- A running command performs a part, or the step builder applies its next grant (kind 3). -/
def progressAct (s : State) (kind u id n : Nat) : Act :=
  let may (loft home : Nat) : Bool := mayProgress s kind u id n && partInOrder s loft home
  match kind with
  | 0 => if 32 ≤ u then .stop .noSuchUnit else .done (if may 2 2 then engPart (partNoted s 2 2) u id n else s)
  | 1 => if 8192 ≤ u then .stop .noSuchUnit else .done (if !s.halted && may 3 0 then matPart (partNoted s 3 0) u id n else s)
  | 2 => if 12 ≤ u then .stop .noSuchUnit else .done (if may 2 1 then linkPart (partNoted s 2 1) u id n else s)
  | 3 => .done (if s.builds.any fun b => b.start.isSome then grantNext s else s)
  | _ => .stop .noSuchUnit

/-! ## The default policy -/

/-- Packets that a core's state may make possible; every 16 cycles another strand comes first. -/
def coreEvents (s : State) (c : Nat) : List Packet :=
  let k := s.core c
  let ts := (k.strands.map (·.1)).rotateLeft (s.cycle / 16)
  (k.sb.map fun e => .storeBufferDrain c e.seq) ++
  (k.mat.queue.flatMap fun x => [.matrixCommandComplete c x.id, .mldsFetchComplete c x.id, .matrixCommandStart c x.id]) ++
  [.handlerStart c, .preemptGraceExpiry c, .contextSave c] ++
  ts.flatMap fun t => [.blockCommit c t, .wfiTimeout c t, .yieldStandoutEnd c t, .alignRelease c t, .heldTimeout c t,
    .watchdogExpiry c t, .blockFetch c t]

/-- Packets that the rest of the module's state may make possible. -/
def moduleEvents (s : State) : List Packet :=
  ((List.range s.migs.length).map .migrationLineMove) ++
  (s.engines.flatMap fun (e, q) => .engineCommandStart e :: q.flatMap fun x => .engineCommandComplete e x.id ::
    [Answer.readable, .poisoned, .absent].map (.engineSourceAnswer e x.id ·)) ++
  (s.ports.flatMap fun (p, q) => .linkCommandStart p :: q.cmds.flatMap fun x => .linkCommandComplete p x.id ::
    [Answer.readable, .poisoned, .absent].map (.linkSourceAnswer p x.id ·)) ++
  [.stepBuild, .batchSeal] ++
  (s.larder.flatMap fun (k, _) => [.evictionComplete k, .restoreComplete k, .restoreTimeout k, .silenceTimeout k]) ++
  (s.launches.flatMap fun l => [.retirement l.asid l.ver, .notbeforeReached l.asid l.ver, .classAging l.asid l.ver,
    .leaseExpiry l.asid l.ver]) ++
  (s.slices.flatMap fun (k, sl) => (List.range 16).filterMap fun w => if sl.flush.getLsbD w then some (.wayDrain k w) else none) ++
  (s.slices.flatMap fun (_, sl) => (sl.vers.filter fun e => e.tn == 0xFFFFFFFF && ansOf e != .absent &&
    e.ver.toNat == nextlOf s e.asid).map fun e => .launchAccept e.asid)

/-- The first piece of a command that has not been written. -/
def nextPiece (c : Cmd) : Nat := ((List.range (c.wrote.length + 1)).find? fun n => !c.wrote.contains n).getD 0

/-- Parts that running commands may perform. -/
def partPick (s : State) : Option Who :=
  let parts : List (Nat × Nat × Nat × Nat) :=
    (s.engines.flatMap fun (e, q) => q.map fun c => (0, e, c.id, nextPiece c)) ++
    (if s.halted then [] else s.cores.flatMap fun (c, k) => k.mat.queue.map fun x =>
      (1, c, x.id, ((List.range (matParts x)).find? fun n => !x.got.any fun y => y.1 == n).getD 0)) ++
    (s.ports.flatMap fun (p, q) => q.cmds.map fun c => (2, p, c.id, nextPiece c))
  let free (k : Nat) : Bool := match k with | 0 => partInOrder s 2 2 | 1 => partInOrder s 3 0 | _ => partInOrder s 2 1
  match parts.find? fun (k, u, id, n) => free k && mayProgress s k u id n && (k != 0 || match findCmd s 0 u id with
      | some c => (engHas c n).isSome || !c.got.any fun x => x.1 == n
      | none => false) with
  | some (k, u, id, n) => some (.progress k u id n)
  | none => match s.builds with
    | b :: _ => if b.start.isSome && !b.plans.isEmpty then some (.progress 3 0 0 0) else none
    | [] => none

/-- What one part of the module may do: its own steps (`none`), or the steps of a core. -/
def unitTurn (s : State) (u : Option Nat) : Option Who :=
  ((match u with | none => moduleEvents s | some c => coreEvents s c).find? fun p => condition s p && inOrder s p).map .event

/-- What happens next when the agenda names nothing: an arrival, a part of a command, or what the parts of the module may do, each
of them the first to be asked in its turn: another every cycle, and every 64 cycles one further, so that no loop keeps a part of
the module from its turn. -/
def pick (s : State) : Option Who :=
  match s.due.find? fun p => isDue s p && arrivable s p && inOrder s p with
  | some p => some (.event p)
  | none =>
    match partPick s with
    | some w => some w
    | none =>
      ((none :: s.cores.map fun x => some x.1).rotateLeft (s.cycle + s.cycle / 64)).findSome? (unitTurn s)

/-! ## The turn -/

def actOf (s : State) : Who → Act
  | .issue c t i lat => issueAct s c t i lat
  | .event p => eventAct s p
  | .progress kind u id n => progressAct s kind u id n
  | .auto => match pick s with
    | some (.event p) => eventAct s p
    | some (.progress kind u id n) => progressAct s kind u id n
    | _ => .done s

/-- What the ports of this cycle issue comes before it: a write to a Loft, and a commit that writes core registers, which the
instructions of its cycle do not see (R100, R180). -/
def mustFollow (s : State) : Who → Bool
  | .issue .. => false
  | .event p => loftRank s p != 0 || (match p with
    | .blockCommit c t => ((s.strand c t).block.map writesRegs).getD false
    | _ => false)
  | .progress .. | .auto => true

/-- What time brings of itself: the update of a throttle level every 10 µs, with a power estimate that the environment gives, and the
PTM exchange every 1 ms, with the host's time or a failure (R400, R410; log 2, DESIGN CHOICE). -/
def timed (s : State) : Option (Packet × State) :=
  match (List.range 4).find? (throttleDue s) with
  | some die =>
    let (w, s) := s.drawBelow 4097
    some (.throttleUpdate die w, s)
  | none =>
    if !ptmDue s then none
    else
      let (ok, s) := s.drawBit
      let (t, s) := s.drawBelow (2^64)
      some (.ptmExchange (if ok then some (.ofNat 64 t) else none), s)

/-- The ns until the next of what time brings of itself. -/
def nsLeft (s : State) : Nat :=
  let throttle := (List.range 4).foldl (fun n die => min n (aget s.lvlAt die 0 + 10000 - s.clock)) 10000
  if s.ptmDone then min throttle (s.ptmAt + 1000000 - s.clock) else throttle

/-- The turn at the head of the agenda, and after its end the default policy a cycle and a ns at a time. Its time passes first:
cycle by cycle, each only once the ports have issued what they pick in it (R376, R377). -/
def nextAct (s : State) : Act :=
  let u := s.agenda.headD ⟨1, 1, .auto⟩
  let rest := s.agenda.tail
  if u.cycles = 0 && u.ns = 0 then
    match if mustFollow s u.who then owed s else none with
    | some (c, t, i) => issueNow s c t i 0
    | none => actOf { s with agenda := rest } u.who
  else match if u.cycles = 0 then none else owed s with
    | some (c, t, i) => issueNow s c t i 0
    | none =>
      match timed s with
      | some (p, s) => .run (stepOf p) { s with packet := p, lat := 0 }
      | none =>
        let n := if portsStill s then u.cycles else min u.cycles 1
        let m := min u.ns (nsLeft s)
        .done (tick { s with agenda := ⟨u.cycles - n, u.ns - m, u.who⟩ :: rest } n m)

end Sys2Proof.Machine
end

