-- ==== Sys2Proof/Machine/Step.lean ====
section
/-! DEFINITION. One step of the machine, and the placing of one instruction to be run next (log 15, DESIGN CHOICE). -/

namespace Sys2Proof.Machine

/-- One step: the turn at the head of the agenda. -/
def step (s : State) : Host.Outcome State Fault Refusal :=
  match nextAct s with
  | .run i s => exec i s
  | .done s => .next s
  | .stop f => .fault f

/-- The operand token of the placed instruction: a scalar 1, whose bit 0 is what a predicate reads (R41). -/
def oneTok : Token := ⟨1, 0⟩

/-- A block whose window holds one instruction, its operands all there; a `.f` predicate is 0. -/
def wordBlock (w x : Word32) : Block :=
  let p : Token := if prOf w == 3 then noTok else oneTok
  { newBlock 0 (List.replicate 16 0) [] with
    slots := [⟨w, some oneTok, some oneTok, some p, false, 0⟩, ⟨x, none, none, none, true, 0⟩]
    starting := none }

/-- The state with an instruction in body slot 0 of a block in the window of strand 0 of core 0, and a turn that issues it at
the head of the agenda. The cycle is one that no throttle level holds (R410), nothing has happened in it yet, and the rotation of
both ports begins at strand 0 (R376). -/
def State.withFetchWord (s : State) (_nbits w : Nat) : State :=
  let b := wordBlock (.ofNat 32 w) (.ofNat 32 (w / 2^32))
  let s := s.onStrand 0 0 fun d => { d with phase := .running, block := some b, yielding := none }
  let s := s.onCore 0 fun k => { k with portA := 15, portM := 15 }
  let n := s.cycle / 8 * 8 + 7
  { s with halted := false, cycle := n, order := .empty n, agenda := ⟨0, 0, .issue 0 0 0 0⟩ :: s.agenda }

end Sys2Proof.Machine
end

