-- ==== Sys2Proof/Safety.lean ====
section
/-! DEFINITION. What a safe step is, and the terms in which the claims speak: lanes and results of tokens (R38-R41), a
firing and what it sends (R43, R44, R63), what a step leaves unchanged, and which instructions are body words. -/

namespace Sys2Proof.Machine

/-- The step answers a next state. -/
def State.Safe (s : State) : Prop := ∃ t, step s = .next t

/-! ## Lanes and results -/

/-- Lane `i` of `w ≥ 8` bits as a consumer reads it, absent where a byte it covers is null (R39). -/
def laneOpt (w : Nat) (t : Token) (i : Nat) : Option (BitVec w) :=
  if t.nul.extractLsb' (w / 8 * i) (w / 8) = 0 then some (t.pay.extractLsb' (w * i) w) else none

/-- PR 01 on lane `i`: kept where the predicate's bit is 1 and lies in no null byte (R41). -/
def gateOpt {α : Type} (pr : BitVec 2) (p : Option Token) (i : Nat) (x : Option α) : Option α :=
  if pr = 1 then
    match p with
    | some m => if m.pay.getLsbD i && !m.nul.getLsbD (i / 8) then x else none
    | none => none
  else x

/-- A lane of two operands: null where either is (R40). -/
def both {α β γ : Type} (f : α → β → γ) (x : Option α) (y : Option β) : Option γ :=
  x.bind fun a => y.map fun b => f a b

/-- `tk` is a result of shape `sh` whose lanes are `g` (R38): a null lane is null in each of its bytes with zero payload, and
the bytes beyond the lanes are zero and not null. -/
def IsResult (sh : BitVec 3) (tk : Token) (g : Nat → Option (BitVec (laneW sh))) : Prop :=
  (∀ i, i < laneN sh → laneOpt (laneW sh) tk i = g i ∧
    (g i = none → tk.nul.extractLsb' (laneW sh / 8 * i) (laneW sh / 8) = BitVec.allOnes (laneW sh / 8) ∧
      tk.pay.extractLsb' (laneW sh * i) (laneW sh) = 0)) ∧
  ∀ j, j < 64 → laneW sh / 8 * laneN sh ≤ j → tk.nul.getLsbD j = false ∧ tk.pay.extractLsb' (8 * j) 8 = 0

/-- `tk` is the predicate token of a test of shape `sh` with the outcomes `g` (R122). -/
def IsMask (sh : BitVec 3) (tk : Token) (g : Nat → Option Bool) : Prop :=
  if sh.toNat < 2 ∧ g 0 = none then IsResult 0 tk fun _ => none
  else ∃ v : BitVec (laneW 0), IsResult 0 tk (fun _ => some v) ∧
    ∀ i, i < 64 → v.getLsbD i = (decide (i < laneN sh) && g i == some true)

/-! ## Memory -/

/-- Every byte of device memory, of the host's memory and of the Lofts reads in `t` as in `s`. -/
def SameBytes (s t : State) : Prop :=
  (∀ a, memRead t.mem a = memRead s.mem a) ∧ (∀ a, memRead t.hostMem a = memRead s.hostMem a) ∧
  ∀ c a, memRead (t.core c).loft a = memRead (s.core c).loft a

/-- Device and host memory are in canonical form. -/
def memoriesWf (s : State) : Bool := Memory.wf s.mem && Memory.wf s.hostMem


/-! ## Firing -/

/-- The predicate has arrived and lets the instruction fire (R41). -/
def predMet (pr : BitVec 2) (p : Option Token) : Bool :=
  pr == 0 || match p with
    | some m => pr == 1 || (!m.nul.getLsbD 0 && m.pay.getLsbD 0 == (pr == 3))
    | none => false

/-- The firing in progress is that of window slot `sl` of block `b`, which has not fired and whose predicate lets it. -/
structure Fires (s : State) (pr : BitVec 2) (b : Block) (sl : Slot) : Prop where
  inWindow : s.curBlock = some b
  here : b.slots[s.cur.2.2]? = some sl
  unfired : sl.fired = false
  pred : predMet pr sl.p = true

/-- The block with slot `i` marked fired. -/
def fireMark (b : Block) (i : Nat) : Block := { b with slots := b.slots.modify i fun sl => { sl with fired := true } }

/-- The state after the firing in progress has fired, when it has no other effect than `f` on its block. -/
def State.fires (s : State) (b : Block) (f : Block → Block) : State :=
  s.onBlock s.cur.1 s.cur.2.1 fun _ => f (fireMark b s.cur.2.2)

/-- A target that takes a token: target 0, an empty write slot, or an empty slot of a window instruction (R63). -/
def targetFree (b : Block) (tg : BitVec 8) : Bool :=
  tg == 0 ||
  (32 ≤ tg.toNat && tg.toNat < 48 && b.wr[tg.toNat - 32]? == some none) ||
  (64 ≤ tg.toNat && match b.slots[tg.toNat % 64]? with
    | some sl => (match tg.toNat / 64 with | 1 => sl.a | 2 => sl.b | _ => sl.p).isNone
    | none => false)

/-- Both targets of a D form take a token. -/
def targetsFree (b : Block) (t1 t0 : BitVec 8) : Bool := targetFree b t1 && targetFree b t0 && (t1 != t0 || t0 == 0)

/-- The block with a token put where a target names, which arrives in cycle `at_` (R63). -/
def putAt (at_ : Nat) (tk : Token) (b : Block) (tg : BitVec 8) : Block :=
  if tg = 0 then b
  else if tg.toNat < 64 then { b with wr := b.wr.set (tg.toNat - 32) (some tk) }
  else { b with slots := b.slots.modify (tg.toNat % 64) fun sl => match tg.toNat / 64 with
    | 1 => { sl with a := some tk, from_ := max sl.from_ at_ }
    | 2 => { sl with b := some tk, from_ := max sl.from_ at_ }
    | _ => { sl with p := some tk, from_ := max sl.from_ at_ } }

/-- The state after the firing in progress has sent `tk` to its targets, and done nothing else. -/
def State.sends (s : State) (b : Block) (tgs : List (BitVec 8)) (tk : Token) : State := s.fires b fun b => tgs.foldl (putAt (s.cycle + s.lat) tk) b

/-- The block with a held effect of the firing in progress in its hold partition, arrived (R49). -/
def State.holds (s : State) (b : Block) (lsid : BitVec 5) (e : Eff) : State :=
  s.fires b fun b => { b with
    held := insertHeld (s.entry s.cur.1 s.cur.2.1 lsid.toNat s.cur.2.2 e 0 []) b.held
    arrived := b.arrived ||| (1 <<< lsid.toNat) }

/-- A held effect that counts as arrived and does nothing (R40). -/
def State.arrives (s : State) (b : Block) (lsid : BitVec 5) : State :=
  s.fires b fun b => { b with arrived := b.arrived ||| (1 <<< lsid.toNat) }

/-- A null byte among the first `n` of a token. -/
def nullIn (t : Token) (n : Nat) : Bool := (List.range n).any fun j => t.nul.getLsbD j
/-- The first `n` bytes of a token are all null. -/
def nullAll (t : Token) (n : Nat) : Bool := (List.range n).all fun j => t.nul.getLsbD j

/-- No translation that the TLB may hold of an access of the firing strand forbids it. -/
def tlbAllows (s : State) (g : Word) (wr : Bool) : Bool :=
  match tlbFind s g (s.core s.cur.1).asid with
  | some leaf => !leafBad g leaf s.user wr false (some s.cur.1)
  | none => true

/-- No line that the core's L1 may hold forbids the access. -/
def l1Allows (s : State) (g : Word) : Bool :=
  match l1Find (s.core s.cur.1) (s.core s.cur.1).asid (s.lineOf g) with
  | some l => !leafBad g l.leaf s.user false false (some s.cur.1)
  | none => true

/-- The firing has put effect `e` into the hold partition, where its checks go on (R49). -/
def HeldGlobal (s t : State) (b : Block) (lsid : BitVec 5) (e : Eff) : Prop :=
  SameBytes s t ∧ ∃ b' h, t.curBlock = some b' ∧ b'.slots = (fireMark b s.cur.2.2).slots ∧ h ∈ b'.held ∧
    h.lsid = lsid.toNat ∧ h.idx = s.cur.2.2 ∧ h.eff = e

/-! ## Instructions -/

/-- The instruction is a body word; the others are steps that the machine takes by itself. -/
def isCoded (i : Instr) : Bool := encode i != []

end Sys2Proof.Machine
end

