-- ==== Sys2Proof/Certificates/Slice0/Obligations.lean ====
section
/-! DEFINITION. The statements for the provers. -/

namespace Sys2Proof.Machine

/-! ## Forms by shape of their constructors -/

/-- A D form with a shape: PR, SHP, T1, T0. -/
abbrev DForm := BitVec 2 → BitVec 3 → BitVec 8 → BitVec 8 → Instr
/-- An I form: PR, SHP, IMM12, T0. -/
abbrev IForm := BitVec 2 → BitVec 3 → BitVec 12 → BitVec 8 → Instr
/-- A D form of a floating-point group: type suffix, PR, SHP, T1, T0. -/
abbrev FForm := BitVec 2 → BitVec 2 → BitVec 3 → BitVec 8 → BitVec 8 → Instr

/-- A signed result held between the limits of its width (R58). -/
def clampS (w : Nat) (x : Int) : BitVec w := .ofInt w (max (-(2^(w-1))) (min (2^(w-1) - 1) x))
/-- An unsigned result held between 0 and the largest of its width (R58). -/
def clampU (w : Nat) (x : Int) : BitVec w := .ofInt w (max 0 (min (2^w - 1) x))

/-- Lane results of two operands (R118). -/
def laneTable2 : List (DForm × ((w : Nat) → BitVec w → BitVec w → BitVec w)) := [
  (.add, fun _ a b => a + b),
  (.sub, fun _ a b => a - b),
  (.mul, fun _ a b => a * b),
  (.mulh, fun w a b => (a.signExtend (2 * w) * b.signExtend (2 * w)).extractLsb' w w),
  (.mulhu, fun w a b => (a.zeroExtend (2 * w) * b.zeroExtend (2 * w)).extractLsb' w w),
  (.mulhsu, fun w a b => (a.signExtend (2 * w) * b.zeroExtend (2 * w)).extractLsb' w w),
  (.iand, fun _ a b => a &&& b),
  (.ior, fun _ a b => a ||| b),
  (.ixor, fun _ a b => a ^^^ b),
  (.andn, fun _ a b => a &&& ~~~b),
  (.orn, fun _ a b => a ||| ~~~b),
  (.shl, fun w a b => a <<< (b.toNat % w)),
  (.shr, fun w a b => a >>> (b.toNat % w)),
  (.sra, fun w a b => a.sshiftRight (b.toNat % w)),
  (.rol, fun w a b => a.rotateLeft (b.toNat % w)),
  (.imin, fun _ a b => if a.sle b then a else b),
  (.imax, fun _ a b => if a.sle b then b else a),
  (.minu, fun _ a b => if a.ule b then a else b),
  (.maxu, fun _ a b => if a.ule b then b else a),
  (.adds, fun w a b => clampS w (a.toInt + b.toInt)),
  (.subs, fun w a b => clampS w (a.toInt - b.toInt)),
  (.addsu, fun w a b => clampU w (a.toNat + b.toNat)),
  (.subsu, fun w a b => clampU w ((a.toNat : Int) - b.toNat))]

/-- Quotients and remainders (R119). -/
def laneTableDiv : List (DForm × ((w : Nat) → BitVec w → BitVec w → BitVec w)) := [
  (.div, fun w a b => if b = 0 then BitVec.allOnes w else a.sdiv b),
  (.divu, fun w a b => if b = 0 then BitVec.allOnes w else a.udiv b),
  (.rem, fun _ a b => if b = 0 then a else a.srem b),
  (.remu, fun _ a b => if b = 0 then a else a.umod b)]

/-- Lane results of one operand (R118). -/
def laneTable1 : List (DForm × ((w : Nat) → BitVec w → BitVec w)) := [
  (.clz, fun w a => .ofNat w ((List.range w).takeWhile fun j => !a.getLsbD (w - 1 - j)).length),
  (.ctz, fun w a => .ofNat w ((List.range w).takeWhile fun j => !a.getLsbD j).length),
  (.popc, fun w a => .ofNat w ((List.range w).filter a.getLsbD).length),
  (.brev, fun _ a => a.reverse),
  (.iabs, fun _ a => a.abs)]

/-- Lane results of one operand and an immediate (R114, R120, R121). -/
def laneTableImm : List (IForm × ((w : Nat) → BitVec w → BitVec 12 → BitVec w)) := [
  (.addi, fun w a m => a + m.signExtend w),
  (.andi, fun w a m => a &&& m.signExtend w),
  (.ori, fun w a m => a ||| m.signExtend w),
  (.xori, fun w a m => a ^^^ m.signExtend w),
  (.muli, fun w a m => a * m.signExtend w),
  (.shli, fun _ a m => a <<< m.toNat),
  (.shri, fun _ a m => a >>> m.toNat),
  (.srai, fun _ a m => a.sshiftRight m.toNat),
  (.sext, fun w a m => (a.extractLsb' 0 m.toNat).signExtend w),
  (.zext, fun w a m => (a.extractLsb' 0 m.toNat).zeroExtend w),
  (.genu, fun w a m => (a <<< 12) ||| m.zeroExtend w)]

/-- Register tests (R123). -/
def testTable2 : List (DForm × ((w : Nat) → BitVec w → BitVec w → Bool)) := [
  (.teq, fun _ a b => a == b),
  (.tne, fun _ a b => a != b),
  (.tlt, fun _ a b => a.slt b),
  (.tle, fun _ a b => a.sle b),
  (.tltu, fun _ a b => a.ult b),
  (.tleu, fun _ a b => a.ule b)]

/-- Immediate tests, exact (R123). -/
def testTableImm : List (IForm × (Int → Int → Bool)) := [
  (.teqi, fun a m => a == m),
  (.tnei, fun a m => a != m),
  (.tlti, fun a m => a < m),
  (.tlei, fun a m => a ≤ m),
  (.tgti, fun a m => m < a)]

/-! ## Rounding as the standard states it -/

/-- 2^e as a rational. -/
def ratPow2 (e : Int) : Rat := if 0 ≤ e then ((2^e.toNat : Nat) : Rat) else 1 / ((2^(-e).toNat : Nat) : Rat)

/-- The order of two rationals. -/
def ratCmp (x y : Rat) : Ordering := if x < y then .lt else if x = y then .eq else .gt

/-- The rational of a finite value. -/
def exRat : Ex → Option Rat
  | .num neg m e => some (if neg then -((m : Rat) * ratPow2 e) else (m : Rat) * ratPow2 e)
  | _ => none

/-- The magnitude of a code; one past the largest finite code it is what the next code would be. -/
def magRat (f : Fmt) (c : Nat) : Rat :=
  if c / 2^f.fb = 0 then ((c % 2^f.fb : Nat) : Rat) * ratPow2 f.qmin
  else ((2^f.fb + c % 2^f.fb : Nat) : Rat) * ratPow2 (f.qmin + (c / 2^f.fb - 1 : Nat))

/-- RND (R58): `r` is the code of a number of sign `neg` whose magnitude compares with a rational `v` as `cmp v` (`.lt`: `v` is
below it), rounded to format `f` in direction `m`. -/
def RoundsTo (f : Fmt) (m : RM) (neg : Bool) (cmp : Rat → Ordering) (r : Nat) : Prop :=
  ∃ c, c ≤ f.maxCode ∧ cmp (magRat f c) ≠ .gt ∧ (c < f.maxCode → cmp (magRat f (c + 1)) = .gt) ∧
    let mid := (magRat f c + magRat f (c + 1)) / 2
    let up : Bool := match m with
      | 0 => cmp mid == .lt || (cmp mid == .eq && c % 2 == 1)
      | 1 => false
      | 2 => !neg && cmp (magRat f c) == .lt
      | _ => neg && cmp (magRat f c) == .lt
    r = signCode f neg (if up then (if c < f.maxCode || f.hasInf then c + 1 else c) else c)

/-- The formats of chapter 06. -/
def allFormats : List Fmt :=
  [f32, bf16, f16, e4m3, e5m2, e2m1] ++
  (List.range 7).flatMap fun p => [b8Fmt false (p + 1) false, b8Fmt false (p + 1) true, b8Fmt true (p + 1) false,
    b8Fmt true (p + 1) true]

/-! ## Floating-point forms -/

/-- Elements of the binary forms (R153). -/
def floatTable2 : List (FForm × (FpCtx → (w : Nat) → Nat → Nat → Nat)) := [
  (.fadd, fun c _ x y => outCode c (exAdd (c.rm == 3) (inVal c x) (inVal c y))),
  (.fsub, fun c _ x y => outCode c (exAdd (c.rm == 3) (inVal c x) (exNeg (inVal c y)))),
  (.fmul, fun c _ x y => outCode c (exMul (inVal c x) (inVal c y))),
  (.fdiv, fun c _ x y => flushCode c.f c.fz (divCode c.f c.rm (inVal c x) (inVal c y))),
  (.fmin, fun c _ x y => if exIsNan (inVal c x) || exIsNan (inVal c y) then c.f.nan
    else rndCode c.f 0 (if exBelow (inVal c y) (inVal c x) then inVal c y else inVal c x)),
  (.fmax, fun c _ x y => if exIsNan (inVal c x) || exIsNan (inVal c y) then c.f.nan
    else rndCode c.f 0 (if exBelow (inVal c x) (inVal c y) then inVal c y else inVal c x)),
  (.fcpys, fun c _ x y => if exIsNan (decodeF c.f (elemCode c.f x)) then c.f.nan
    else elemCode c.f x % c.f.top + (elemCode c.f y / c.f.top) * c.f.top),
  (.fscl, fun c w x y => match inVal c x with
    | .num neg m e => if m = 0 then rndCode c.f 0 (.num neg 0 0) else outCode c (.num neg m (e + (BitVec.ofNat w y).toInt))
    | v => rndCode c.f 0 v)]

/-- Elements of the unary forms (R154, R157). -/
def floatTable1 : List (FForm × (FpCtx → Nat → Nat)) := [
  (.fsqrt, fun c x => flushCode c.f c.fz (sqrtCode c.f c.rm (inVal c x))),
  (.frcp, fun c x => flushCode c.f c.fz (divCode c.f c.rm (exInt 1) (inVal c x))),
  (.frsq, fun c x => flushCode c.f c.fz (rsqrtCode c.f c.rm (inVal c x))),
  (.fabs, fun c x => if exIsNan (decodeF c.f (elemCode c.f x)) then c.f.nan else elemCode c.f x % c.f.top),
  (.fneg, fun c x => if exIsNan (decodeF c.f (elemCode c.f x)) then c.f.nan else elemCode c.f x ^^^ c.f.top),
  (.fexp2, fun c x => flushCode c.f c.fz (exp2Code c.f c.rm (inVal c x))),
  (.flog2, fun c x => flushCode c.f c.fz (log2Code c.f c.rm (inVal c x)))]

/-- Elements of the three-operand forms before their one rounding (R155). -/
def floatTable3 : List ((BitVec 2 → BitVec 3 → BitVec 8 → BitVec 8 → Instr) × (Bool → Ex → Ex → Ex → Ex)) := [
  (.ffma, fun rdn a b d => exAdd rdn (exMul a b) d),
  (.ffms, fun rdn a b d => exAdd rdn (exMul a b) (exNeg d)),
  (.fnfma, fun rdn a b d => exAdd rdn d (exNeg (exMul a b)))]

/-- Compares (R156). -/
def floatTestTable : List (FForm × (Ex → Ex → Bool)) := [
  (.feq, fun a b => exEq a b),
  (.flt, fun a b => exLt a b),
  (.fle, fun a b => exLt a b || exEq a b),
  (.fun, fun a b => exIsNan a || exIsNan b)]

/-- The code of element `i` of a token of shape `sh` in format `f` (R151). -/
def elemOpt (f : Fmt) (sh : BitVec 3) (t : Token) (i : Nat) : Option Nat :=
  (laneOpt (laneW sh) t i).map fun l => l.toNat % 2^f.width

/-- `n` is the rational rounded to an integer in direction `m`, ties to even under RNE (R58). -/
def RoundsToInt (m : RM) (x : Rat) (n : Int) : Prop :=
  match m with
  | 0 => (n : Rat) - 1 / 2 ≤ x ∧ x ≤ (n : Rat) + 1 / 2 ∧ ((x = (n : Rat) - 1 / 2 ∨ x = (n : Rat) + 1 / 2) → n % 2 = 0)
  | 1 => if x < 0 then (n : Rat) - 1 < x ∧ x ≤ n else (n : Rat) ≤ x ∧ x < (n : Rat) + 1
  | 2 => (n : Rat) - 1 < x ∧ x ≤ n
  | _ => (n : Rat) ≤ x ∧ x < (n : Rat) + 1

/-- The entry of an INT4 code (R130). -/
def lutByte (k : Core) (code : BitVec 4) : BitVec 8 :=
  (if code.toNat < 8 then k.lut4a else k.lut4b).extractLsb' (8 * (code.toNat % 8)) 8

/-- Element `i` of 4 bits, absent where its byte is null (R39). -/
def nibOpt (t : Token) (i : Nat) : Option (BitVec 4) :=
  if t.nul.getLsbD (i / 2) then none else some (t.pay.extractLsb' (4 * i) 4)

/-- The classes of R157 by bit. -/
def classBit (f : Fmt) (code : Nat) : Nat :=
  match decodeF f code with
  | .nan => 8
  | .inf neg => if neg then 0 else 7
  | .num neg _ _ =>
    let c := code % f.top
    if c = 0 then (if neg then 3 else 4)
    else if c < 2^f.fb then (if neg then 2 else 5)
    else if neg then 1 else 6

/-- Fields of a scalar atomic: W, PR, LSID, SCOPE, order, and target or offset. -/
abbrev AmoForm := BitVec 1 → BitVec 2 → BitVec 5 → BitVec 3 → BitVec 3 → BitVec 8 → Instr

/-- The non-returning scalar atomics by AMOFN (R218, R220). -/
def amoNrTable : List (AmoForm × BitVec 4) := [
  (.aaddNr, 0), (.aandNr, 1), (.aorNr, 2), (.axorNr, 3), (.aminNr, 4), (.amaxNr, 5), (.aminuNr, 6), (.amaxuNr, 7), (.axchgNr, 8),
  (fun _ => .afaddNr, 10)]
/-- The returning scalar atomics by AMOFN (R218, R219). -/
def amoRetTable : List (AmoForm × BitVec 4) := [
  (.aaddRet, 0), (.aandRet, 1), (.aorRet, 2), (.axorRet, 3), (.aminRet, 4), (.amaxRet, 5), (.aminuRet, 6), (.amaxuRet, 7),
  (.axchgRet, 8), (.acas, 9), (fun _ => .afaddRet, 10)]
/-- The vector atomics by VFN (R221). -/
def amoVecTable : List ((BitVec 2 → BitVec 5 → BitVec 3 → BitVec 3 → BitVec 8 → Instr) × BitVec 4) := [
  (.aorV, 0), (.aandV, 1), (.aaddV32, 2)]

/-- The effect is a store that puts byte `x` at `a`, of the Loft (`loc`) or of global memory. -/
def StoresAt (s : State) (loc : Bool) (a : Nat) (e : Eff) (x : Byte) : Prop :=
  ∃ g rel d, e = .store g loc rel d ∧
    let first := if loc then g.toNat else (s.norm g).toNat
    first ≤ a ∧ d[a - first]? = some (some x)

/-- `x` is what the last element of a list that gives a byte gives, none where no element gives one. -/
def LastGives {α : Type} (gives : α → Byte → Prop) (l : List α) : Option Byte → Prop
  | some x => ∃ pre h post, l = pre ++ h :: post ∧ gives h x ∧ ∀ k ∈ post, ∀ y, ¬gives k y
  | none => ∀ k ∈ l, ∀ y, ¬gives k y

/-- The byte that a load of LSID `lsid` takes for address `a` before it asks any memory: that of the youngest store of its own block
with a lower LSID, else of the youngest one of its core's store buffer, of the core's ASID for a global address (R48, R197, R212). -/
def ForwardsTo (s : State) (b : Block) (lsid : Nat) (loc : Bool) (a : Nat) (x : Option Byte) : Prop :=
  ∃ own buffered,
    LastGives (fun h => StoresAt s loc a h.eff) (b.held.filter fun h => h.lsid < lsid) own ∧
    LastGives (fun e => StoresAt s loc a e.eff)
      ((s.core s.cur.1).sb.filter fun e => loc || e.asid == (s.core s.cur.1).asid) buffered ∧
    x = if own.isSome then own else buffered

/-- The issuing core's and strand's view of a load that has fired: it is outstanding, recorded, and the slot has fired; `got` is what
it holds of its bytes. -/
def LoadStarted (s t : State) (b : Block) (lsid : BitVec 5) (loc : Bool) (a z parts : Nat) (got : List (Option Byte)) : Prop :=
  SameBytes s t ∧ ∃ b' o, t.curBlock = some b' ∧ b'.slots = (fireMark b s.cur.2.2).slots ∧ b'.outst = b.outst ++ [o] ∧
    b'.loads = b.loads ++ [⟨s.cur.2.2, lsid.toNat, .ofNat 64 a, loc, z⟩] ∧ o.idx = s.cur.2.2 ∧ o.lsid = lsid.toNat ∧ o.z = z ∧
    o.left = parts ∧ o.got = got

/-- The access of one part of a global load: its address, its ASID, its mode, and its size, 0 where every byte of the part is
forwarded; only a plain load of this device fills the L1 (R195, R212, R214). -/
def loadReq (s : State) (lsid : BitVec 5) (a : Word) (plain : Bool) (got : List (Option Byte)) (p : Nat × Nat) : MemReq where
  orig := .load (s.src lsid)
  g := a + .ofNat 64 p.1
  asid := (s.core s.cur.1).asid
  user := s.user
  core := some s.cur.1
  op := .read p.1 (if ((got.drop p.1).take p.2).all Option.isSome then 0 else p.2)
    (plain && nodeOf (s.norm (a + .ofNat 64 p.1)) == 0x7F)

/-- What an access to this device sends: itself to its home, if a translation is at hand, or to its translator; a plain load may be
answered from the line that the L1 holds (R208, R214, R271). -/
def AccessLeaves (s : State) (plain : Bool) (p : Nat × Nat) (m : MemReq) (pk : Packet) : Prop :=
  pk = .pageWalk m ∨
  (∃ leaf, tlbFind s m.g m.asid = some leaf ∧ pk = .homeAccess m (accessPa s m.g m.asid leaf) leaf) ∨
  (plain = true ∧ ∃ l src, m.orig = .load src ∧ l1Find (s.core s.cur.1) m.asid (s.lineOf m.g) = some l ∧
    pk = .resultReturn none src (.bytes p.1 ((l.d.drop (m.g.toNat % 128)).take p.2)))

/-- A load of an address that is another device's: only SYSTEM-scope events order it (R204). -/
def farLoad (s : State) (loc : Bool) (a : Word) : Bool := !loc && isRemote (s.norm a)

/-- A load of `z` bytes is performed when it fires: for the first time, in its place or ahead of it with no value kept from an
earlier run (log 7), and nothing ahead of it makes it wait (R48, R194, R197). -/
structure LoadGoes (s : State) (b : Block) (lsid : BitVec 5) (loc : Bool) (a : Word) (z : Nat) : Prop where
  first : againOk s s.cur.1 s.cur.2.1 b (farLoad s loc a) s.cur.2.2 = false
  alone : ∀ o ∈ b.outst, o.idx ≠ s.cur.2.2
  turn : mayLoad s s.cur.1 s.cur.2.1 b (farLoad s loc a) lsid.toNat = true
  fresh : inPlace s s.cur.1 s.cur.2.1 b ordersLoads true (farLoad s loc a) lsid.toNat = true ∨ ∀ x ∈ b.guess, x.1 ≠ s.cur.2.2
  clear : loadWaits s (s.src lsid) b loc a z = false

/-- The bits of a strand register that a write reaches (R97, R12). -/
def strandMask (i : Nat) : Word :=
  match i with
  | 0 => 0x307 | 1 => 0xFFFF | 4 => 0x3F | 5 => 0xFFFFFFFFFF | 6 => 1 | 7 => 7 | _ => BitVec.allOnes 64

/-- The bits of a core register that a write reaches (R99, R12, R25). -/
def coreMask (c i : Nat) : Word :=
  if i = 0x100 ∨ i = 0x123 then 0xFFFF
  else if i = 0x120 then 0x1FFFF
  else if i = 0x121 then 0x3FFFF
  else if i = 0x122 ∨ i = 0x124 then ~~~63
  else if i = 0x125 then (edgeMask c).zeroExtend 64
  else if i = 0x127 ∨ i = 0x128 then 0xFF
  else if 0x111 ≤ i ∧ i < 0x118 then 0x7FFFFFFFF
  else if 0x119 ≤ i ∧ i < 0x120 then 0x1FFFF
  else BitVec.allOnes 64

/-- The step that packet `p` brings answers a next state `u` with `Q u`. -/
def Does (i : Instr) (p : Packet) (s : State) (Q : State → Prop) : Prop := s.packet = p → ∃ u, exec i s = .next u ∧ Q u
/-- The step that packet `p` brings answers the next state `t`. -/
def Gives (i : Instr) (p : Packet) (s t : State) : Prop := s.packet = p → exec i s = .next t

/-- The strand is at a boundary in its trap handler's first block: the state of a trap entry from `d` (R381, R390). -/
def Trapped (s u : State) (c t : Nat) (r : TrapRec) : Prop :=
  let d := s.strand c t
  let e := u.strand c t
  e.tcause = r.cause.zeroExtend 64 ||| (r.sub.zeroExtend 64 <<< 8) ∧ e.tval = r.tval ∧ e.tblk = r.tblk ∧
  e.tlsid = r.tlsid.zeroExtend 64 ∧ e.ttime = s.timebase &&& 0xFFFFFFFFFF ∧ e.resume = r.resume ∧
  e.status.getLsbD 8 = d.status.getLsbD 0 ∧ e.status.getLsbD 9 = d.status.getLsbD 1 ∧ e.status.getLsbD 0 = true ∧
  e.status.getLsbD 1 = false ∧ (∀ j, 2 ≤ j → j ≠ 8 → j ≠ 9 → e.status.getLsbD j = d.status.getLsbD j) ∧
  e.bpc = (s.core c).trapvec ∧ e.block = none ∧ e.phase = .boundary ∧ e.g = d.g ∧ e.v = d.v

/-- Register number of a valid write slot, V above G (R61). -/
def slotReg (b : Block) (k : Nat) : Nat := writeSlot b.hdr k / 2 % 64
/-- No other write slot of the block names the register that slot `k` names (R36). -/
def onlyWriter (b : Block) (k : Nat) : Prop := ∀ j, j < 16 → j ≠ k → wsValid (writeSlot b.hdr j) = true → slotReg b j ≠ slotReg b k
/-- The bytes of a token written over those of a register: a null byte keeps the register's (R42). -/
def MergedInto {w : Nat} (old : BitVec w) (tk : Token) (new : BitVec w) : Prop :=
  ∀ j, 8 * j < w → new.extractLsb' (8 * j) 8 = if tk.nul.getLsbD j then old.extractLsb' (8 * j) 8 else tk.pay.extractLsb' (8 * j) 8
/-- The block's write slots have been merged into the registers; every other register keeps its value (R42, R56). -/
def Committed (d e : Strand) (b : Block) : Prop :=
  (∀ k tk, k < 16 → wsValid (writeSlot b.hdr k) = true → onlyWriter b k → b.wr[k]? = some (some tk) →
    (slotReg b k < 32 → MergedInto (d.g.getD (slotReg b k) 0) tk (e.g.getD (slotReg b k) 0)) ∧
    (32 ≤ slotReg b k → slotReg b k < 48 → MergedInto (d.v.getD (slotReg b k - 32) 0) tk (e.v.getD (slotReg b k - 32) 0))) ∧
  (∀ r, r < 32 → (∀ k, k < 16 → wsValid (writeSlot b.hdr k) = true → slotReg b k ≠ r) → e.g.getD r 0 = d.g.getD r 0) ∧
  ∀ r, r < 16 → (∀ k, k < 16 → wsValid (writeSlot b.hdr k) = true → slotReg b k ≠ r + 32) → e.v.getD r 0 = d.v.getD r 0

/-- The valid read slots of a header (R61). -/
def readSlots (hdr : List Word32) : List Nat := ((List.range 16).map (readSlot hdr)).filter rsValid

/-- Memory `m` with the bytes of `d` that are present written from `pa` on, as a function of the address. -/
def writtenAt (m : Mem) (pa : Nat) (d : List (Option Byte)) (a : Nat) : Byte :=
  match if pa ≤ a then d[a - pa]? else none with
  | some (some x) => x
  | _ => memRead m a

/-- Device memory reads in `u` as in `s` with those bytes written; host memory and the Lofts read as before. -/
def WroteDevice (s u : State) (pa : Nat) (d : List (Option Byte)) : Prop :=
  (∀ a, memRead u.mem a = writtenAt s.mem pa d a) ∧ (∀ a, memRead u.hostMem a = memRead s.hostMem a) ∧
  ∀ c a, memRead (u.core c).loft a = memRead (s.core c).loft a

/-- The Loft of core `c` reads in `u` as in `s` with those bytes written; all other memory reads as before. -/
def WroteLoft (s u : State) (c pa : Nat) (d : List (Option Byte)) : Prop :=
  (∀ a, memRead u.mem a = memRead s.mem a) ∧ (∀ a, memRead u.hostMem a = memRead s.hostMem a) ∧
  ∀ k a, memRead (u.core k).loft a = if k = c then writtenAt (s.core c).loft pa d a else memRead (s.core k).loft a

/-- The new value of an integer atomic (R218). `hi`: the operand's upper half, which CAS compares with. -/
def atomicNew {w : Nat} (fn : BitVec 4) (old x hi : BitVec w) : BitVec w :=
  match fn.toNat with
  | 0 => old + x
  | 1 => old &&& x
  | 2 => old ||| x
  | 3 => old ^^^ x
  | 4 => if old.sle x then old else x
  | 5 => if old.sle x then x else old
  | 6 => if old.ule x then old else x
  | 7 => if old.ule x then x else old
  | 8 => x
  | _ => if old = hi then x else old

/-- The little-endian number of bytes in memory (R8). -/
def numAt (w : Nat) (m : Mem) (pa : Nat) : BitVec w := .ofNat w (leNat (memBytes m pa (w / 8)))

/-- The origin is one whose access is performed: a load's block has not been flushed (R55), and a prefetch changes nothing
that a program sees (R216). -/
def wanted (s : State) : MemOrig → Bool
  | .load src => s.current src
  | .prefetch => false
  | _ => true

/-- The lower of two failing parts of a load, by address (R208). -/
def lowest (o : Option (Nat × Word)) (cause : Nat) (tval : Word) : Nat × Word :=
  match o with
  | some y => if y.2.toNat ≤ tval.toNat then y else (cause, tval)
  | none => (cause, tval)

/-- The load that returns is no longer early, and a load that went ahead of it is performed again (log 7). -/
def notEarly (s : State) (src : Src) : State :=
  s.onBlock src.core src.strand fun b => { b with early := (b.early.filter fun e => e.idx != src.idx).map fun e =>
    match e.on with
    | some l => if l.contains src.idx then { e with on := none } else e
    | none => e }

/-- An entry's contents are those of a version being filled, with these bytes (R228, R254). -/
def FillingAs (s : State) (r : Ref) (size pend : Nat) (fmt : BitVec 4) (bytes : Nat → Byte) : Prop :=
  ∃ e, findVer s r = some e ∧ e.state = .filling ∧ e.size = size ∧ e.pend = pend ∧ e.fmt = fmt ∧ ∀ a, memRead e.bytes a = bytes a

/-- The version's table entry exists and holds data of its own: SEALED and no proxy (R236, R242). -/
def sealedHere (s : State) (r : Ref) (e : Ver) : Prop :=
  findVer s r = some e ∧ (findTile s r.asid r.tn).isSome = true ∧ r.ver.toNat ≤ hwmOf s r.asid r.tn ∧ e.state = .sealed_ ∧ e.proxy = false

/-- The tile has these versions. -/
def tileHas (s : State) (r : Ref) (es : List Ver) : Prop := ((s.slice (homeRef r)).vers.filter fun e => e.ofTile r.asid r.tn) = es

/-- No version's storage lies in a tile pool, so that none can leave it, with its bytes staying in HBM (R188). -/
def NoPool (s : State) : Prop := ∀ x ∈ s.slices, ∀ e ∈ x.2.vers, e.hbm = true → e.grans = 0

/-- Bytes that a fill carries. -/
def fillCount (d : List (Option Byte)) : Nat := (d.filter Option.isSome).length

/-- Accumulator (h, j) and plane value (k, j) as the unit's arithmetic reads them (R297). -/
def accAt (m : Matrix) (h j : Nat) : BitVec 32 := ((accRows m).getD h []).getD j 0
def planeAt (p : Plane) (k j : Nat) : Ex := ((rowsOf 64 64 (planeVals p)).getD k []).getD j exPlusZero

/-- The command has left its queue, and its strand, unless it waits as a saved context for a handler to end (R338), counts one
outstanding command less (R302, R319). -/
def CommandGone (s u : State) (kind unit : Nat) (c : Cmd) : Prop :=
  cmdsOf u kind unit = (cmdsOf s kind unit).filter (fun x => x.id != c.id) ∧
  (waitingImage s c.src.core c.src.strand c.launch = none →
    let d := s.strand c.src.core c.src.strand
    let e := u.strand c.src.core c.src.strand
    if kind = 1 then e.matOut = d.matOut - 1 else e.engOut = d.engOut - 1)

/-- The cause of a command that failed waits as a deferred report of its strand (R253, R329). -/
def Reported (s u : State) (c : Cmd) (cause : Nat) (tval : Word) : Prop :=
  c.launch = none → (s.strand c.src.core c.src.strand).report = none →
    (u.strand c.src.core c.src.strand).report = some (reportRec cause tval c.blk (cmdLsid c))

/-- The version, the only one of its tile and held by a reference, is POISONED in `u` if it was FILLING (R236). -/
def PoisonedIn (s u : State) (r : Ref) : Prop :=
  ∀ e, findVer s r = some e → tileHas s r [e] → e.state = .filling → e.proxy = false → e.refs ≠ 0 →
    ∃ e', findVer u r = some e' ∧ e'.state = .poisoned

/-- A completion version takes eight bytes of `x` as TST gives them (R257): stated where this does not complete the version. -/
def FilledWith (s u : State) (r : Ref) (x : Nat) : Prop :=
  ∀ e, r.ver ≠ 0 → findVer s r = some e → tileHas s r [e] → e.state = .filling → e.proxy = false → e.closed = false →
    8 ≤ e.size → 8 < e.pend →
    FillingAs u r e.size (e.pend - 8) e.fmt (writtenAt e.bytes 0 ((leBytes x 8).map some))

/-- The launch is not in the table, and no launch has been added (R360). -/
def LaunchGone (s u : State) (asid : BitVec 16) (ver : BitVec 32) : Prop :=
  ∀ l ∈ u.launches, l ∈ s.launches ∧ ¬(l.asid = asid ∧ l.ver = ver)

/-- A strand as its task starts (R30, R97, R366): coordinates in g0 to g7, the argument pointer in g8. -/
def TaskStarted (e : Strand) (l : Launch) (slot : Nat) : Prop :=
  e.bpc = recEntry l.raw ∧ e.status = 2 ∧ e.live = true ∧ e.ev = recEv l.raw ∧ e.phase = .boundary ∧
  e.launch = some (l.asid, l.ver, slot) ∧ e.nflag = 0 ∧ e.fpmode = 0 ∧ e.cycles = 0 ∧ e.blocks = 0 ∧ e.report = none ∧
  (∀ i, i < 32 → e.g.getD i 0 = if i < 8 then .ofNat 64 ((coordsOf l.raw slot).getD i 0) else if i = 8 then recArgs l.raw else 0) ∧
  ∀ i, i < 16 → e.v.getD i 0 = 0

/-- A global address that the tables map, with no translation of it in the TLB. -/
structure Mapped (s : State) (g : Word) (asid : BitVec 16) (leaf : Leaf) : Prop where
  fields : fieldsOk g = true
  here : isRemote (s.norm g) = false
  fresh : tlbFind s (s.norm g) asid = none
  walks : walk s (dieOf (s.norm g)) asid (vaOf (s.norm g)) = .ok leaf

/-- Where a mapped address lies now (R266, R275). -/
def mappedAt (s : State) (g : Word) (leaf : Leaf) : Nat := leafPa leaf (vaOf (s.norm g))

/-- Bytes `[a, a+n)` of a core's Loft are open to a command (R176, R323, R329). -/
def LoftFree (s : State) (c : Cmd) (core a n : Nat) : Prop :=
  a + n ≤ 0x18000 ∧
  if core = c.src.core then c.user = true → n ≠ 0 → c.base ≤ a ∧ a + n ≤ c.limit
  else (s.core core).asid = c.asid ∧
    (c.user = true → n ≠ 0 → (s.core core).protbase.toNat ≤ a ∧ a + n ≤ (s.core core).protlimit.toNat)

/-- The storage of a local tile on another core is open to a command (R329). -/
def TileFree (s : State) (c : Cmd) (core a n : Nat) : Prop := core = c.src.core ∨ LoftFree s c core a n

/-- Bytes `[o, o+n)` of an endpoint can be read, and are `b` (R322, R324). -/
def EndHolds (s : State) (c : Cmd) (e : Endpoint) (o n : Nat) (b : List Byte) : Prop :=
  match e.kind with
  | 0 =>
    let g := e.a + .ofNat 64 o
    (isRemote (s.norm g) = true ∧ c.fetched = true ∧ b = (c.buf.drop o).take n) ∨
    ∃ leaf, Mapped s g c.asid leaf ∧ leaf.host = false ∧ leafBad (s.norm g) leaf c.user false false none = false ∧
      poisoned s (mappedAt s g leaf) = false ∧ poolVer s (fwd s (mappedAt s g leaf)) = none ∧
      b = memBytes s.mem (fwd s (mappedAt s g leaf)) n
  | 1 =>
    let a := e.a.toNat + o
    LoftFree s c e.core a n ∧ (∀ x ∈ (s.core e.core).loftPoison, ¬(a ≤ x ∧ x < a + n)) ∧ b = memBytes (s.core e.core).loft a n
  | 2 => ∃ v, findVer s (refOf c.asid e.a) = some v ∧ v.state = .sealed_ ∧ e.off + o + n ≤ v.size ∧
      b = if v.proxy then (c.buf.drop (e.off + o)).take n else memBytes v.bytes (e.off + o) n
  | _ =>
    let v := s.lvt e.core (locTile e.a)
    let a := v.addr * 64 + e.off + o
    v.state = .sealed_ ∧ v.ver = .ofNat 16 (locVer e.a) ∧ e.off + o + n ≤ v.size ∧ TileFree s c e.core a n ∧
      (∀ x ∈ (s.core e.core).loftPoison, ¬(a ≤ x ∧ x < a + n)) ∧ b = memBytes (s.core e.core).loft a n

/-- An endpoint takes the bytes `d` from its byte `o` on, without becoming full of them (R322, R324, R236). -/
def EndTakes (s : State) (c : Cmd) (e : Endpoint) (o : Nat) (d : List Byte) : Prop :=
  match e.kind with
  | 0 => ∃ leaf, Mapped s (e.a + .ofNat 64 o) c.asid leaf ∧ leaf.host = false ∧
      leafBad (s.norm (e.a + .ofNat 64 o)) leaf c.user true false none = false ∧
      poolVer s (fwd s (mappedAt s (e.a + .ofNat 64 o) leaf)) = none
  | 1 => LoftFree s c e.core (e.a.toNat + o) d.length
  | 2 => ∃ v, findVer s (refOf c.asid e.a) = some v ∧ tileHas s (refOf c.asid e.a) [v] ∧ v.state = .filling ∧ v.proxy = false ∧
      v.closed = false ∧ e.off + o + d.length ≤ v.size ∧ d.length < v.pend
  | _ =>
    let v := s.lvt e.core (locTile e.a)
    v.state = .filling ∧ v.ver = .ofNat 16 (locVer e.a) ∧ e.off + o + d.length ≤ v.size ∧ d.length < v.pend ∧
      TileFree s c e.core (v.addr * 64 + e.off + o) d.length

/-- It has taken them. -/
def EndTook (s u : State) (c : Cmd) (e : Endpoint) (o : Nat) (d : List Byte) : Prop :=
  match e.kind with
  | 0 => ∀ leaf, Mapped s (e.a + .ofNat 64 o) c.asid leaf →
      WroteDevice s u (fwd s (mappedAt s (e.a + .ofNat 64 o) leaf)) (d.map some)
  | 1 => WroteLoft s u e.core (e.a.toNat + o) (d.map some)
  | 2 => ∀ v, findVer s (refOf c.asid e.a) = some v →
      FillingAs u (refOf c.asid e.a) v.size (v.pend - d.length) v.fmt (writtenAt v.bytes (e.off + o) (d.map some))
  | _ =>
    let v := s.lvt e.core (locTile e.a)
    WroteLoft s u e.core (v.addr * 64 + e.off + o) (d.map some) ∧ (u.lvt e.core (locTile e.a)).pend = v.pend - d.length

/-- A target of the block's window or write slots that already holds a token (R44, R54). -/
def targetFull (b : Block) (tg : BitVec 8) : Prop :=
  (32 ≤ tg.toNat ∧ tg.toNat < 48 ∧ ∃ x, b.wr[tg.toNat - 32]? = some (some x)) ∨
  (64 ≤ tg.toNat ∧ ∃ sl x, b.slots[tg.toNat % 64]? = some sl ∧
    (match tg.toNat / 64 with | 1 => sl.a | 2 => sl.b | _ => sl.p) = some x)

/-- Nothing of the strand but its block differs, or, its block gone, nothing of its registers but those of a trap (R15, R55). -/
def OnlyItsBlock (d e : Strand) : Prop :=
  (e.block.isSome = true → e = { d with block := e.block }) ∧
  e.g = d.g ∧ e.v = d.v ∧ e.nflag = d.nflag ∧ e.fpmode = d.fpmode ∧ e.cycles = d.cycles ∧ e.blocks = d.blocks ∧ e.hnd = d.hnd ∧
  e.rbpc = d.rbpc ∧ e.live = d.live ∧ e.ev = d.ev ∧ e.launch = d.launch

end Sys2Proof.Machine

open Sys2Proof Sys2Proof.Machine

/-! ## Integer, lane and test forms -/

/-- R118 with R38, R40 and R41: each two-operand integer form completes with its lane results in both targets, and does nothing
else. R118: CLZ, CTZ, POPC, BREV and ABS complete with their lane results. R114, R120, R121: the immediate forms, SEXT, ZEXT and
GENU complete with their lane results. -/
def Obligations.IntegerLanes : Prop :=
  (∀ e ∈ laneTable2, ∀ (pr : BitVec 2) (sh : BitVec 3) (t1 t0 : BitVec 8) (s : State) (b : Block) (sl : Slot) (x y : Token),
     (e.1 pr sh t1 t0).wf = true → Fires s pr b sl → sl.a = some x → sl.b = some y → targetsFree b t1 t0 = true →
     ∃ tk, IsResult sh tk (fun i => gateOpt pr sl.p i
         (both (e.2 (laneW sh)) (laneOpt (laneW sh) x i) (laneOpt (laneW sh) y i))) ∧
       exec (e.1 pr sh t1 t0) s = .next (s.sends b [t1, t0] tk)) ∧
  (∀ e ∈ laneTable1, ∀ (pr : BitVec 2) (sh : BitVec 3) (t1 t0 : BitVec 8) (s : State) (b : Block) (sl : Slot) (x : Token),
     (e.1 pr sh t1 t0).wf = true → Fires s pr b sl → sl.a = some x → targetsFree b t1 t0 = true →
     ∃ tk, IsResult sh tk (fun i => gateOpt pr sl.p i ((laneOpt (laneW sh) x i).map (e.2 (laneW sh)))) ∧
       exec (e.1 pr sh t1 t0) s = .next (s.sends b [t1, t0] tk)) ∧
  (∀ e ∈ laneTableImm, ∀ (pr : BitVec 2) (sh : BitVec 3) (imm : BitVec 12) (t0 : BitVec 8) (s : State) (b : Block) (sl : Slot)
     (x : Token),
     (e.1 pr sh imm t0).wf = true → Fires s pr b sl → sl.a = some x → targetFree b t0 = true →
     ∃ tk, IsResult sh tk (fun i => gateOpt pr sl.p i ((laneOpt (laneW sh) x i).map fun a => e.2 (laneW sh) a imm)) ∧
       exec (e.1 pr sh imm t0) s = .next (s.sends b [t0] tk))

/-- R119: the division forms complete on every operand pair, a zero divisor and the overflowing pair included. -/
def Obligations.DivisionNeverFaults : Prop :=
  ∀ e ∈ laneTableDiv, ∀ (pr : BitVec 2) (sh : BitVec 3) (t1 t0 : BitVec 8) (s : State) (b : Block) (sl : Slot) (x y : Token),
    (e.1 pr sh t1 t0).wf = true → Fires s pr b sl → sl.a = some x → sl.b = some y → targetsFree b t1 t0 = true →
    ∃ tk, IsResult sh tk (fun i => gateOpt pr sl.p i
        (both (e.2 (laneW sh)) (laneOpt (laneW sh) x i) (laneOpt (laneW sh) y i))) ∧
      exec (e.1 pr sh t1 t0) s = .next (s.sends b [t1, t0] tk)

/-- R122, R123, R108: the tests complete with a mask token; PR 01 gates the source lanes. -/
def Obligations.TestsGiveMaskTokens : Prop :=
  (∀ e ∈ testTable2, ∀ (pr : BitVec 2) (sh : BitVec 3) (t1 t0 : BitVec 8) (s : State) (b : Block) (sl : Slot) (x y : Token),
    (e.1 pr sh t1 t0).wf = true → Fires s pr b sl → sl.a = some x → sl.b = some y → targetsFree b t1 t0 = true →
    ∃ tk, IsMask sh tk (fun i =>
        both (e.2 (laneW sh)) (gateOpt pr sl.p i (laneOpt (laneW sh) x i)) (laneOpt (laneW sh) y i)) ∧
      exec (e.1 pr sh t1 t0) s = .next (s.sends b [t1, t0] tk)) ∧
  ∀ e ∈ testTableImm, ∀ (pr : BitVec 2) (sh : BitVec 3) (imm : BitVec 12) (t0 : BitVec 8) (s : State) (b : Block) (sl : Slot)
    (x : Token),
    (e.1 pr sh imm t0).wf = true → Fires s pr b sl → sl.a = some x → targetFree b t0 = true →
    ∃ tk, IsMask sh tk (fun i => (gateOpt pr sl.p i (laneOpt (laneW sh) x i)).map fun a => e.2 a.toInt imm.toInt) ∧
      exec (e.1 pr sh imm t0) s = .next (s.sends b [t0] tk)

/-- R113-R116, R124: LINK, GENC, NUL, VIOTA and MOV complete; MOV passes its token whole. R117: SEL fires whatever its selector
holds, and each lane is the chosen one, null or not. -/
def Obligations.ConstantsMovesAndSelect : Prop :=
  (∀ (pr : BitVec 2) (sh : BitVec 3) (imm : BitVec 12) (t1 t0 : BitVec 8) (s : State) (b : Block) (sl : Slot),
     Fires s pr b sl →
     (targetFree b t0 = true →
       (∃ tk, IsResult 0 tk (fun i => gateOpt pr sl.p i (some (show Word from b.addr + imm.signExtend 64 * 64))) ∧
         exec (.link pr imm t0) s = .next (s.sends b [t0] tk)) ∧
       ((Instr.genc pr sh imm t0).wf = true →
         ∃ tk, IsResult sh tk (fun i => gateOpt pr sl.p i (some (imm.signExtend (laneW sh)))) ∧
           exec (.genc pr sh imm t0) s = .next (s.sends b [t0] tk)) ∧
       ((Instr.nul pr sh t0).wf = true →
         ∃ tk, IsResult sh tk (fun _ => none) ∧ exec (.nul pr sh t0) s = .next (s.sends b [t0] tk)) ∧
       ((Instr.viota pr sh imm t0).wf = true →
         ∃ tk, IsResult sh tk (fun i => gateOpt pr sl.p i (some (.ofInt (laneW sh) (imm.toInt + i)))) ∧
           exec (.viota pr sh imm t0) s = .next (s.sends b [t0] tk))) ∧
     ∀ x, sl.a = some x → targetsFree b t1 t0 = true → (Instr.mov pr t1 t0).wf = true →
       exec (.mov pr t1 t0) s = .next (s.sends b [t1, t0] x)) ∧
  (∀ (pr : BitVec 2) (sh : BitVec 3) (t1 t0 : BitVec 8) (s : State) (b : Block) (sl : Slot) (x y p : Token),
     (Instr.sel pr sh t1 t0).wf = true → s.curBlock = some b → b.slots[s.cur.2.2]? = some sl → sl.fired = false →
     sl.a = some x → sl.b = some y → sl.p = some p → targetsFree b t1 t0 = true →
     ∃ tk, IsResult sh tk (fun i =>
         let j := if pr = 1 then i else 0
         if p.nul.getLsbD (j / 8) then none
         else if p.pay.getLsbD j = (pr != 2) then laneOpt (laneW sh) x i else laneOpt (laneW sh) y i) ∧
       exec (.sel pr sh t1 t0) s = .next (s.sends b [t1, t0] tk))

/-- R124, R128: the permuting forms move lanes with their null bits. R126: VCMPR packs the lanes of A that its mask selects into
the low lanes, in ascending order. -/
def Obligations.PermutesAndCompress : Prop :=
  (∀ (pr : BitVec 2) (sh : BitVec 3) (imm : BitVec 12) (t1 t0 : BitVec 8) (s : State) (b : Block) (sl : Slot) (x : Token),
     vecShape sh = true → Fires s pr b sl → sl.a = some x →
     let A := laneOpt (laneW sh) x
     let L := laneN sh
     let sends2 (i : Instr) (g : Nat → Option (BitVec (laneW sh))) : Prop :=
       ∃ tk, IsResult sh tk (fun i => gateOpt pr sl.p i (g i)) ∧ exec i s = .next (s.sends b [t1, t0] tk)
     (targetsFree b t1 t0 = true →
       sends2 (.vbcast pr sh t1 t0) (fun _ => A 0) ∧
       ∀ y, sl.b = some y →
         let B := laneOpt (laneW sh) y
         sends2 (.vperm pr sh t1 t0) (fun i => (B i).bind fun j => A (j.toNat % L)) ∧
         sends2 (.vzip pr sh t1 t0) (fun i => if i % 2 = 0 then A (i / 2) else B (i / 2)) ∧
         sends2 (.vunzip pr sh t1 t0) (fun i => if i < L / 2 then A (2 * i) else B (2 * (i - L / 2))) ∧
         (∀ lane : BitVec 4, (Instr.vins pr sh lane t1 t0).wf = true →
           sends2 (.vins pr sh lane t1 t0) fun i => if i = lane.toNat then B 0 else A i)) ∧
     (targetFree b t0 = true →
       ((Instr.vslide pr sh imm t0).wf = true →
         ∃ tk, IsResult sh tk (fun i => gateOpt pr sl.p i
             (if 0 ≤ (i : Int) - imm.toInt ∧ (i : Int) - imm.toInt < L then A ((i : Int) - imm.toInt).toNat else some 0)) ∧
           exec (.vslide pr sh imm t0) s = .next (s.sends b [t0] tk)) ∧
       ((Instr.vext pr sh imm t0).wf = true →
         ∃ tk, IsResult 0 tk (fun _ => (gateOpt pr sl.p imm.toNat (A imm.toNat)).map (·.zeroExtend 64)) ∧
           exec (.vext pr sh imm t0) s = .next (s.sends b [t0] tk)))) ∧
  (∀ (pr : BitVec 2) (sh : BitVec 3) (t1 t0 : BitVec 8) (s : State) (b : Block) (sl : Slot) (x m : Token),
     (Instr.vcmpr pr sh t1 t0).wf = true → Fires s pr b sl → sl.a = some x → sl.b = some m → targetsFree b t1 t0 = true →
     let sel := (List.range (laneN sh)).filter fun i =>
       !m.nul.getLsbD (i / 8) && m.pay.getLsbD i && (laneOpt (laneW sh) x i).isSome
     ∃ tk, IsResult sh tk (fun n => gateOpt pr sl.p n (sel[n]?.bind (laneOpt (laneW sh) x))) ∧
       exec (.vcmpr pr sh t1 t0) s = .next (s.sends b [t1, t0] tk))

/-- R127, R108: the scan, the reductions and MASKPOP skip null lanes. -/
def Obligations.ScanAndReductionsSkipNulls : Prop :=
  ∀ (pr : BitVec 2) (sh : BitVec 3) (t1 t0 : BitVec 8) (s : State) (b : Block) (sl : Slot) (x : Token),
    vecShape sh = true → Fires s pr b sl → sl.a = some x → targetsFree b t1 t0 = true →
    let A := laneOpt (laneW sh) x
    let G := fun i => gateOpt pr sl.p i (A i)
    let present := (List.range (laneN sh)).filterMap G
    let reduces (i : Instr) (g : Option (BitVec 64)) : Prop :=
      ∃ tk, IsResult 0 tk (fun _ => g) ∧ exec i s = .next (s.sends b [t1, t0] tk)
    (∃ tk, IsResult sh tk (fun i => gateOpt pr sl.p i ((A i).map fun _ =>
        ((List.range (i + 1)).filterMap A).foldl (· + ·) 0)) ∧
      exec (.vscan pr sh t1 t0) s = .next (s.sends b [t1, t0] tk)) ∧
    (present = [] →
      reduces (.vredadd pr sh t1 t0) none ∧ reduces (.vredmin pr sh t1 t0) none ∧
      reduces (.vredmax pr sh t1 t0) none ∧ reduces (.vredor pr sh t1 t0) none) ∧
    (present ≠ [] →
      reduces (.vredadd pr sh t1 t0) (some (present.foldl (fun acc l => acc + l.signExtend 64) 0)) ∧
      reduces (.vredor pr sh t1 t0) (some (present.foldl (fun acc l => acc ||| l.zeroExtend 64) 0)) ∧
      (∃ m ∈ present, (∀ l ∈ present, m.sle l = true) ∧ reduces (.vredmin pr sh t1 t0) (some (m.signExtend 64))) ∧
      (∃ m ∈ present, (∀ l ∈ present, l.sle m = true) ∧ reduces (.vredmax pr sh t1 t0) (some (m.signExtend 64)))) ∧
    reduces (.maskpop pr sh t1 t0) (some (.ofNat 64 ((List.range (laneN sh)).filter fun j =>
      x.pay.getLsbD j && !x.nul.getLsbD (j / 8) && (gateOpt pr sl.p (j / laneW sh) (some ())).isSome).length))

/-! ## Number formats and floating-point forms -/

/-- R58: rounding gives the format's value nearest in the direction, ties to even, overflow as the standard says, in every format
of the module. -/
def Obligations.RoundingIsCorrect : Prop :=
  ∀ f ∈ allFormats, ∀ (m : RM) (neg : Bool) (mag : Nat) (e : Int), m < 4 → (neg = true → f.sgn = true) →
    RoundsTo f m neg (fun v => ratCmp v ((mag : Rat) * ratPow2 e)) (rndCode f m (.num neg mag e))

/-- R153, R154: quotients, square roots and reciprocal roots of finite numbers are rounded once from their exact values. -/
def Obligations.QuotientsAndRootsRoundOnce : Prop :=
  ∀ f ∈ [f32, bf16, f16], ∀ (m : RM) (cx cy : Nat) (a b : Bool) (x y : Nat) (e k : Int),
    m < 4 → decodeF f cx = .num a x e → decodeF f cy = .num b y k → x ≠ 0 → y ≠ 0 →
    RoundsTo f m (a != b) (fun v => ratCmp (v * ((y : Rat) * ratPow2 k)) ((x : Rat) * ratPow2 e))
      (divCode f m (.num a x e) (.num b y k)) ∧
    (a = false →
      RoundsTo f m false (fun v => ratCmp (v * v) ((x : Rat) * ratPow2 e)) (sqrtCode f m (.num a x e)) ∧
      RoundsTo f m false (fun v => ratCmp (v * v * ((x : Rat) * ratPow2 e)) 1) (rsqrtCode f m (.num a x e)))

/-- R153 with IEEE 754: sums and products of finite values are exact, and their special cases are as stated. R153, R154: the
special operands of the division, for every pair of operands, and of the unary forms. R154: FEXP2 of an integer and FLOG2 of a power
of two are exact, and every other finite result lies between those of the powers around it (how many bits the model computes, log
entry 22, decides the last rounding and is not stated). -/
def Obligations.ExactSumsAndSpecialOperands : Prop :=
  ((∀ (rdn a b : Bool) (m n : Nat) (e k : Int),
     exRat (exAdd rdn (.num a m e) (.num b n k)) =
       some (((exRat (.num a m e)).getD 0) + ((exRat (.num b n k)).getD 0)) ∧
     exRat (exMul (.num a m e) (.num b n k)) =
       some (((exRat (.num a m e)).getD 0) * ((exRat (.num b n k)).getD 0)) ∧
     (0 < m → m * ratPow2 e = n * ratPow2 k → exSign (exAdd rdn (.num a m e) (.num (!a) n k)) = rdn)) ∧
   ∀ (rdn a b : Bool) (x : Ex),
     exAdd rdn (.inf a) (.inf (!a)) = .nan ∧ exAdd rdn (.inf a) (.inf a) = .inf a ∧
     (exIsNan x = false → x ≠ .inf (!a) → exAdd rdn (.inf a) x = .inf a ∧ exAdd rdn x (.inf a) = .inf a) ∧
     exMul (.inf a) (.num b 0 0) = .nan ∧ exMul (.num b 0 0) (.inf a) = .nan ∧
     (exIsNan x = false → exIsZero x = false → exMul (.inf a) x = .inf (a != exSign x)) ∧
     exAdd rdn .nan x = .nan ∧ exAdd rdn x .nan = .nan ∧ exMul .nan x = .nan ∧ exMul x .nan = .nan) ∧
  (∀ f ∈ [f32, bf16, f16], ∀ (m : RM) (neg : Bool) (x : Nat) (e : Int), m < 4 →
     let inf := f.maxCode + 1
     (sqrtCode f m (.num neg 0 e) = (if neg then f.top else 0) ∧ (x ≠ 0 → sqrtCode f m (.num true x e) = f.nan) ∧
       sqrtCode f m (.inf true) = f.nan ∧ sqrtCode f m (.inf false) = inf) ∧
     (∀ (a : Bool) (y : Nat) (k : Int) (v : Ex),
       divCode f m (.num neg 0 e) (.num a 0 k) = f.nan ∧ divCode f m (.inf neg) (.inf a) = f.nan ∧
       (x ≠ 0 → divCode f m (.num neg x e) (.num a 0 k) = signCode f (neg != a) inf) ∧
       (y ≠ 0 → divCode f m (.num neg 0 e) (.num a y k) = signCode f (neg != a) 0) ∧
       divCode f m (.inf neg) (.num a y k) = signCode f (neg != a) inf ∧
       divCode f m (.num neg x e) (.inf a) = signCode f (neg != a) 0 ∧
       divCode f m .nan v = f.nan ∧ divCode f m v .nan = f.nan) ∧
     (rsqrtCode f m (.num neg 0 e) = signCode f neg inf ∧ rsqrtCode f m (.inf false) = 0 ∧ rsqrtCode f m (.inf true) = f.nan ∧
       (x ≠ 0 → rsqrtCode f m (.num true x e) = f.nan)) ∧
     (exp2Code f m (.num neg 0 e) = rndCode f m (exInt 1) ∧ exp2Code f m (.inf true) = 0 ∧ exp2Code f m (.inf false) = inf) ∧
     (log2Code f m (.num neg 0 e) = signCode f true inf ∧ log2Code f m (.inf false) = inf ∧ log2Code f m (.inf true) = f.nan ∧
       (x ≠ 0 → log2Code f m (.num true x e) = f.nan) ∧ log2Code f m (.num false 1 0) = 0) ∧
     (sqrtCode f m .nan = f.nan ∧ rsqrtCode f m .nan = f.nan ∧ exp2Code f m .nan = f.nan ∧ log2Code f m .nan = f.nan)) ∧
  ∀ f ∈ [f32, bf16, f16], ∀ (m : RM) (c : Nat) (neg : Bool) (x : Nat) (e n : Int), m < 4 → decodeF f c = .num neg x e →
    let a : Rat := (exRat (.num neg x e)).getD 0
    let pow (n : Int) : Nat := rndCode f m (.num false 1 n)
    (a = n → exp2Code f m (.num neg x e) = pow n) ∧
    ((n : Rat) < a → a < n + 1 → pow n ≤ exp2Code f m (.num neg x e) ∧ exp2Code f m (.num neg x e) ≤ pow (n + 1)) ∧
    (a = ratPow2 n → log2Code f m (.num neg x e) = rndCode f m (exInt n)) ∧
    (ratPow2 n < a → a < ratPow2 (n + 1) →
      let l := log2Code f m (.num neg x e)
      let below := rndCode f m (exInt n) % f.top
      let above := rndCode f m (exInt (n + 1)) % f.top
      (0 ≤ n → below ≤ l ∧ l ≤ above) ∧ (n < 0 → f.top ≤ l ∧ above ≤ l % f.top ∧ l % f.top ≤ below))

/-- R151-R155, R157: the floating-point forms complete; each element is formed in the direction and the flush of FPMODE. R156,
R158-R160: compares, NFCHK, FREDADD and FDOT complete; they gate their source elements. -/
def Obligations.FloatElementsTestsAndReductions : Prop :=
  (∀ (ty pr : BitVec 2) (sh : BitVec 3) (t1 t0 : BitVec 8) (s : State) (b : Block) (sl : Slot) (x : Token),
     ty ≠ 3 → floatShape ty sh = true → sl.a = some x → targetsFree b t1 t0 = true →
     let c := s.fpCtx ty
     let w := laneW sh
     (Fires s pr b sl →
       (∀ e ∈ floatTable1, ∃ tk, IsResult sh tk (fun i => gateOpt pr sl.p i
           ((laneOpt w x i).map fun l => .ofNat w (e.2 c l.toNat))) ∧
         exec (e.1 ty pr sh t1 t0) s = .next (s.sends b [t1, t0] tk)) ∧
       (∃ tk, IsResult sh tk (fun i => (gateOpt pr sl.p i (elemOpt c.f sh x i)).map fun l =>
           .ofNat w (2^classBit c.f l)) ∧
         exec (.fclass ty pr sh t1 t0) s = .next (s.sends b [t1, t0] tk)) ∧
       ∀ y, sl.b = some y → ∀ e ∈ floatTable2, ∃ tk, IsResult sh tk (fun i => gateOpt pr sl.p i
           (both (fun l m => .ofNat w (e.2 c w l.toNat m.toNat)) (laneOpt w x i) (laneOpt w y i))) ∧
         exec (e.1 ty pr sh t1 t0) s = .next (s.sends b [t1, t0] tk)) ∧
     (s.curBlock = some b → b.slots[s.cur.2.2]? = some sl → sl.fired = false → ∀ y z, sl.b = some y → sl.p = some z →
       ∀ e ∈ floatTable3, ∃ tk, IsResult sh tk (fun i =>
           both (fun lm n => .ofNat w (outCode c (e.2 (c.rm == 3) (inVal c lm.1) (inVal c lm.2) (inVal c n))))
             (both (fun l m => (l.toNat, m.toNat)) (laneOpt w x i) (laneOpt w y i)) ((laneOpt w z i).map (·.toNat))) ∧
         exec (e.1 ty sh t1 t0) s = .next (s.sends b [t1, t0] tk))) ∧
  (∀ (ty pr : BitVec 2) (sh : BitVec 3) (t1 t0 : BitVec 8) (s : State) (b : Block) (sl : Slot) (x : Token),
     ty ≠ 3 → floatShape ty sh = true → sl.a = some x → targetsFree b t1 t0 = true → Fires s pr b sl →
     let c := s.fpCtx ty
     let d : FpCtx := { c with f := f32 }
     let A := fun i => gateOpt pr sl.p i (elemOpt c.f sh x i)
     let sum := fun (k : FpCtx) (v : Nat → Option Ex) =>
       (treeSum (fun p q => decodeF k.f (outCode k (exAdd (k.rm == 3) p q))) 5 ((List.range (laneN sh)).map v)).map
         fun r => BitVec.ofNat 32 (rndCode k.f 0 r)
     (∃ tk, IsResult 1 tk (fun _ => sum c fun i => (A i).map (inVal c)) ∧
       exec (.fredadd ty pr sh t1 t0) s = .next (s.sends b [t1, t0] tk)) ∧
     (∃ v : BitVec 64, (∀ i, i < 64 → v.getLsbD i = (decide (i < laneN sh) && match A i with
           | some l => (exRat (decodeF c.f l)).isNone
           | none => false)) ∧
       ∃ tk, IsResult 0 tk (fun _ => some v) ∧
         exec (.nfchk ty pr sh t1 t0) s = .next (s.fires b fun b =>
           [t1, t0].foldl (putAt (s.cycle + s.lat) tk) (if v = 0 then b else { b with nf := true }))) ∧
     ∀ y, sl.b = some y →
       (∀ e ∈ floatTestTable, ∃ tk, IsMask sh tk (fun i =>
           both (fun l m => e.2 (inVal c l) (inVal c m)) (A i) (elemOpt c.f sh y i)) ∧
         exec (e.1 ty pr sh t1 t0) s = .next (s.sends b [t1, t0] tk)) ∧
       ∃ tk, IsResult 1 tk (fun _ => sum d fun i =>
           both (fun l m => decodeF f32 (outCode d (exMul (inVal c l) (inVal c m)))) (A i) (elemOpt c.f sh y i)) ∧
         exec (.fdot ty pr sh t1 t0) s = .next (s.sends b [t1, t0] tk))

/-- R146, R147, R161, R162: VMAXEXP completes with the running maximum, the running sum and the scale factor in lanes 0 to 2. -/
def Obligations.VmaxexpUpdatesRunningState : Prop :=
  ∀ (ty : BitVec 2) (sh : BitVec 3) (t1 t0 : BitVec 8) (s : State) (b : Block) (sl : Slot) (x y z : Token),
    ty ≠ 3 → floatShape ty sh = true → s.curBlock = some b → b.slots[s.cur.2.2]? = some sl → sl.fired = false →
    sl.a = some x → sl.b = some y → sl.p = some z → targetsFree b t1 t0 = true →
    let c : FpCtx := { s.fpCtx ty with f := f32 }
    let out := fun (v : Ex) => decodeF f32 (outCode c v)
    match laneOpt 32 y 0, laneOpt 32 y 1, laneOpt 32 z 0 with
    | some m0, some s0, some k0 =>
      let m := inVal c m0.toNat
      let q := inVal c s0.toNat
      let xs : List (Option Ex) := (List.range (laneN sh)).map fun i => (elemOpt (tyFmt ty) sh x i).map fun l =>
        out (exMul (inVal { c with f := tyFmt ty } l) (inVal c k0.toNat))
      let all : List Ex := m :: xs.filterMap id
      ∃ m', (if exIsNan q || all.any exIsNan then m' = .nan else m' ∈ all ∧ ∀ v ∈ all, exBelow m' v = false) ∧
        let r := sx c m m'
        let t := (treeSum (fun p q => out (exAdd (c.rm == 3) p q)) 5 (xs.map fun v => v.map fun v => sx c v m')).getD exZero
        let s' := if m' = .nan then .nan else out (exAdd (c.rm == 3) (exMul q r) t)
        let nf := (xs.filterMap id).any fun v => v == .nan || v == .inf false
        ∃ tk, IsResult 3 tk (fun i => some (.ofNat 32 (if i = 0 then rndCode f32 0 m' else if i = 1 then rndCode f32 0 s'
              else if i = 2 then rndCode f32 0 r else 0))) ∧
          exec (.vmaxexp ty sh t1 t0) s = .next (s.fires b fun b =>
            [t1, t0].foldl (putAt (s.cycle + s.lat) tk) (if nf then { b with nf := true } else b))
    | _, _, _ => ∃ tk, IsResult 3 tk (fun _ => none) ∧ exec (.vmaxexp ty sh t1 t0) s = .next (s.sends b [t1, t0] tk)

/-! ## Conversions and narrow formats -/

/-- R141: a conversion to an integer rounds in its direction and then saturates. -/
def Obligations.ToIntegerRoundsThenSaturates : Prop :=
  ∀ (m : RM) (lo hi : Int) (neg : Bool) (mag : Nat) (e : Int), m < 4 → lo ≤ 0 → 0 ≤ hi → -(2^64) ≤ lo → hi ≤ 2^64 →
    (∃ n, RoundsToInt m (if neg then -((mag : Rat) * ratPow2 e) else (mag : Rat) * ratPow2 e) n ∧
      exToInt m lo hi (.num neg mag e) = max lo (min hi n)) ∧
    exToInt m lo hi .nan = 0 ∧ exToInt m lo hi (.inf neg) = if neg then lo else hi

/-- R163-R165: the conversions complete; each lane is converted from its low bits, with upper bits zero. R166-R168: the MX forms
complete with the packed or unpacked block. R141: what a conversion to a float format or to an integer gives. R167: the scale of an
MX block is that of its largest magnitude, and its codes are the quotients, saturated and rounded to even. -/
def Obligations.ConversionsAndPacking : Prop :=
  (∀ (pr : BitVec 2) (sh : BitVec 3) (inf : BitVec 1) (round prec : BitVec 3) (f g : BitVec 4) (t0 : BitVec 8) (s : State)
     (b : Block) (sl : Slot) (x : Token),
     Fires s pr b sl → sl.a = some x → targetFree b t0 = true →
     let w := laneW sh
     let m := if round = 0 then bits s.fpmode 0 2 else round.toNat - 1
     let lanes (h : Nat → Nat) (i : Instr) : Prop := ∃ tk,
       IsResult sh tk (fun i => gateOpt pr sl.p i ((laneOpt w x i).map fun l => .ofNat w (h l.toNat))) ∧
       exec i s = .next (s.sends b [t0] tk)
     ((Instr.cvt pr sh inf round f g t0).wf = true →
       lanes (fun l => cvtTo g m (inf == 1) (cvtVal f (l % 2^cvtW f))) (.cvt pr sh inf round f g t0)) ∧
     ((Instr.cvtB8 pr sh inf round f 0 prec t0).wf = true →
       lanes (fun l => convCode (b8Fmt false prec.toNat (inf == 1)) m (inf == 1) (cvtVal f (l % 2^cvtW f)))
         (.cvtB8 pr sh inf round f 0 prec t0) ∧
       lanes (fun l => convCode (b8Fmt true prec.toNat (inf == 1)) m (inf == 1) (cvtVal f (l % 2^cvtW f)))
         (.cvtUb8 pr sh inf round f 0 prec t0) ∧
       lanes (fun l => let v := decodeF (b8Fmt false prec.toNat (inf == 1)) (l % 256)
           cvtTo f m (v == .inf false || v == .inf true) v) (.cvtB8 pr sh inf round f 1 prec t0) ∧
       lanes (fun l => let v := decodeF (b8Fmt true prec.toNat (inf == 1)) (l % 256)
           cvtTo f m (v == .inf false || v == .inf true) v) (.cvtUb8 pr sh inf round f 1 prec t0))) ∧
  (∀ (pr : BitVec 2) (t1 t0 : BitVec 8) (s : State) (b : Block) (sl : Slot) (x : Token),
     pr ≠ 1 → Fires s pr b sl → sl.a = some x → targetsFree b t1 t0 = true →
     let packs (f : Fmt) (emax : Int) (w : Nat) (i : Instr) : Prop :=
       ∃ tk : Token, exec i s = .next (s.sends b [t1, t0] tk) ∧
         (if (List.range 32).any fun j => laneOpt 16 x j == none then tk = ⟨0, BitVec.allOnes 64⟩
          else
           let q := mxQuant f emax ((List.range 32).map fun j => decodeF bf16 ((laneOpt 16 x j).getD 0).toNat)
           tk.nul = 0 ∧ (∀ j, j < 32 → (tk.pay.extractLsb' (w * j) w).toNat = q.2.getD j 0) ∧
             (tk.pay.extractLsb' (32 * w) 8).toNat = q.1 ∧ tk.pay >>> (32 * w + 8) = 0)
     let unpacks (f : Fmt) (w : Nat) (i : Instr) : Prop :=
       ∃ tk, exec i s = .next (s.sends b [t1, t0] tk) ∧ IsResult 4 tk (fun j =>
         if x.nul.getLsbD (w * j / 8) || x.nul.getLsbD (4 * w) then none
         else some (.ofNat 16 (rndCode bf16 0
           (mxVal f (x.pay.extractLsb' (32 * w) 8).toNat (x.pay.extractLsb' (w * j) w).toNat))))
     packs e2m1 2 4 (.qpk4 pr t1 t0) ∧ packs e4m3 8 8 (.qpk8E4m3 pr t1 t0) ∧ packs e5m2 15 8 (.qpk8E5m2 pr t1 t0) ∧
     unpacks e2m1 4 (.qunpE2m1 pr t1 t0) ∧ unpacks e4m3 8 (.qunpE4m3 pr t1 t0) ∧ unpacks e5m2 8 (.qunpE5m2 pr t1 t0)) ∧
  (∀ f ∈ allFormats, ∀ (m : RM) (inf : Bool), m < 4 →
     let top := magRat f f.maxCode
     (f ≠ e2m1 → convCode f m inf .nan = f.nan) ∧
     ∀ neg : Bool,
       (neg = true → f.sgn = false → ∀ mag e, convCode f m inf (.num neg mag e) = 0 ∧ convCode f m inf (.inf neg) = 0) ∧
       (neg = false ∨ f.sgn = true →
         convCode f m true (.inf neg) = rndCode f m (.inf neg) ∧ convCode f m false (.inf neg) = signCode f neg f.maxCode ∧
         ∀ (mag : Nat) (e : Int),
           convCode f m true (.num neg mag e) = rndCode f m (.num neg mag e) ∧
           ((mag : Rat) * ratPow2 e ≤ top → convCode f m false (.num neg mag e) = rndCode f m (.num neg mag e)) ∧
           (top < (mag : Rat) * ratPow2 e → convCode f m false (.num neg mag e) = signCode f neg f.maxCode))) ∧
  (∀ (g : BitVec 4) (m : RM) (inf : Bool) (x : Ex) (n : Nat),
     let w := cvtW g
     (g.toNat < 3 → cvtTo g m inf x = (BitVec.ofInt w (exToInt m (-(2^(w - 1))) (2^(w - 1) - 1) x)).toNat ∧
       cvtVal g n = exInt (BitVec.ofNat w n).toInt) ∧
     (3 ≤ g.toNat → cvtTo g m inf x = convCode (cvtFmt g.toNat) m inf x ∧ cvtVal g n = decodeF (cvtFmt g.toNat) (n % 2^w))) ∧
  ∀ e ∈ [(e2m1, 2), (e4m3, 8), (e5m2, (15 : Int))], ∀ cs : List Ex,
    let q := mxQuant e.1 e.2 cs
    let mag (c : Ex) : Rat := let v := (exRat c).getD 0; if v < 0 then -v else v
    q.2.length = cs.length ∧
    ((∃ c ∈ cs, exRat c = none) → q.1 = 255 ∧ ∀ c ∈ q.2, c = 0) ∧
    ((∀ c ∈ cs, ∃ v, exRat c = some v) →
      ((∀ c ∈ cs, mag c = 0) → q.1 = 0 ∧ ∀ c ∈ q.2, c = 0) ∧
      ∀ (big : Ex) (k : Int), big ∈ cs → (∀ c ∈ cs, mag c ≤ mag big) → ratPow2 (k + e.2) ≤ mag big → mag big < ratPow2 (k + e.2 + 1) →
        let x := max (-127) (min 127 k)
        (q.1 : Int) = x + 127 ∧ ∀ (i : Nat) (neg : Bool) (n : Nat) (p : Int), cs[i]? = some (.num neg n p) →
          q.2[i]? = some (convCode e.1 0 false (.num neg n (p - x))))

/-- R130, R131, R169: LUT4 reads each code through the core's table, scaled with one rounding. R170: I4PK's codes are the exact
quotients rounded to even and saturated; a null input makes the result null. -/
def Obligations.TableLookupAndQuantise : Prop :=
  (∀ (pr : BitVec 2) (sh : BitVec 3) (t1 t0 : BitVec 8) (s : State) (b : Block) (sl : Slot) (x : Token),
     (Instr.lut4 pr sh t1 t0).wf = true → Fires s pr b sl → sl.a = some x → targetsFree b t1 t0 = true →
     let k := s.core s.cur.1
     let scaled (f : Fmt) (w n : Nat) (i : Nat) : Option (BitVec w) :=
       both (fun c (g : BitVec w) => .ofNat w (rndCode f 0 (exMul (exInt (lutByte k c).toInt) (decodeF f g.toNat))))
         (nibOpt x i) (if x.nul.extractLsb' (n / 2) (w / 8) = 0 then some (x.pay.extractLsb' (4 * n) w) else none)
     ∃ tk, exec (.lut4 pr sh t1 t0) s = .next (s.sends b [t1, t0] tk) ∧
       (if sh = 6 then IsResult 5 tk (fun i => (nibOpt x i).map (lutByte k))
        else if sh = 4 then IsResult 4 tk (scaled bf16 16 32)
        else IsResult 3 tk (scaled f32 32 16))) ∧
  (∀ (pr : BitVec 2) (sh : BitVec 3) (t1 t0 : BitVec 8) (s : State) (b : Block) (sl : Slot) (x y : Token),
     (Instr.i4pk pr sh t1 t0).wf = true → Fires s pr b sl → sl.a = some x → sl.b = some y → targetsFree b t1 t0 = true →
     let f := if sh = 3 then f32 else bf16
     let w := if sh = 3 then 32 else 16
     let n := if sh = 3 then 16 else 32
     ∃ tk : Token, exec (.i4pk pr sh t1 t0) s = .next (s.sends b [t1, t0] tk) ∧
       (if laneOpt w y 0 == none || (List.range n).any fun i => laneOpt w x i == none then tk = ⟨0, BitVec.allOnes 64⟩
        else
         let sigma := ((laneOpt w y 0).getD 0).toNat
         tk.nul = 0 ∧ tk.pay >>> (4 * n) = (if sh = 6 then 0 else .ofNat 512 sigma) ∧
         ∀ i, i < n →
           let code := tk.pay.extractLsb' (4 * i) 4
           let a := decodeF f ((laneOpt w x i).getD 0).toNat
           match a, exRat (decodeF f sigma) with
           | _, none => code = 0
           | .nan, _ => code = 0
           | .inf neg, some q => code = (if q = 0 then 0 else if neg != decide (q < 0) then 8 else 7)
           | a, some q => if q = 0 then code = 0 else
               ∃ z : Int, RoundsToInt 0 ((exRat a).getD 0 / q) z ∧ code.toInt = max (-8) (min 7 z)))

/-! ## Memory instructions -/

/-- R207, R212, R215: a load of global memory whose address and checks are good goes out, one access for each part on the two
sides of a 64-byte boundary, with the part's address, size, ASID and mode: to this device's translator or home, or, as a READ, to the
device that it names. It holds the bytes that stores before it forward (R48, R197), and memory is unchanged. -/
def Obligations.GlobalLoadsGoOut : Prop :=
  ∀ (pr : BitVec 2) (lsid : BitVec 5) (size : BitVec 3) (scope off : BitVec 4) (t0 : BitVec 8) (s : State) (b : Block)
    (sl : Slot) (x : Token),
    size.toNat < 5 → Fires s pr b sl → sl.a = some x → nullIn x 8 = false →
    let z := sizeBytes size
    let goes (a : Word) (plain : Bool) (i : Instr) : Prop :=
      let parts := parts64 a z
      (z = 64 → a.toNat % 64 = 0) → badPart s a parts = none → LoadGoes s b lsid false a z →
      (∀ p ∈ parts, tlbAllows s (a + .ofNat 64 p.1) false = true ∧ l1Allows s (a + .ofNat 64 p.1) = true) →
      ∃ t got, exec i s = .next t ∧ LoadStarted s t b lsid false (s.norm a).toNat z parts.length got ∧
        got.length = z ∧ (∀ j, j < z → ForwardsTo s b lsid.toNat false ((s.norm a).toNat + j) (got.getD j none)) ∧
        let asks := loadReq s lsid a plain got
        (isRemote (s.norm a) = false → t.sent = s.sent ∧ ∃ pks : List Packet, t.due = s.due ++ pks ∧ pks.length = parts.length ∧
          ∀ (j : Nat) (p : Nat × Nat) (pk : Packet), parts[j]? = some p → pks[j]? = some pk → AccessLeaves s plain p (asks p) pk) ∧
        (isRemote (s.norm a) = true → t.due = s.due ∧ ∃ fs : List Flit, t.sent = s.sent ++ fs ∧ fs.length = parts.length ∧
          ∀ (j : Nat) (p : Nat × Nat) (f : Flit), parts[j]? = some p → fs[j]? = some f → ∃ tag n fill, (asks p).op = .read p.1 n fill ∧
            f = Flit.read (nodeOf a) tag (.addr (asks p).asid (asks p).user (asks p).g) n (some (s.cur.1, lsid.toNat)))
    goes (v64 x 0 + .ofInt 64 (off.toInt * z)) true (.ld pr lsid size off t0) ∧
    goes (v64 x 0) false (.ldAcq pr lsid size scope t0) ∧
    goes (v64 x 0 + .ofInt 64 (off.toInt * z)) false (.ldLast pr lsid size off t0)

/-- R176, R178, R179, R212: a Loft load answers at once with the bytes of the Loft, or of the decoded elements of its window (the
sign of a zero table entry: log entry 73), and holds the bytes that Loft stores before it forward (R48). R40, R207: a load whose
address has a null byte reads nothing and gives a null token. -/
def Obligations.LoftAndNullLoads : Prop :=
  (∀ (pr : BitVec 2) (lsid : BitVec 5) (size : BitVec 3) (off : BitVec 4) (t0 : BitVec 8) (s : State) (b : Block)
     (sl : Slot) (x : Token),
     size.toNat < 5 → Fires s pr b sl → sl.a = some x → nullIn x 8 = false →
     let z := sizeBytes size
     let k := s.core s.cur.1
     let reads (a : Word) (i : Instr) : Prop :=
       let window := bits a 17 3
       let first := bits a 0 17
       let width := winZ (k.win window)
       (z = 64 → a.toNat % 64 = 0) → localOk k s.user k.protbase.toNat k.protlimit.toNat a z false = true →
       loftBad k ((localBytes k a z false).getD []) = false → LoadGoes s b lsid true a z →
       ∃ t got d, exec i s = .next t ∧ LoadStarted s t b lsid true a.toNat z 1 got ∧
         t.due = s.due ++ [.resultReturn none (s.src lsid) (.bytes 0 d)] ∧ d.length = z ∧ got.length = z ∧
         (window = 0 → ∀ j, j < z → d.getD j 0 = memRead k.loft (first + j) ∧
           ForwardsTo s b lsid.toNat true (a.toNat + j) (got.getD j none)) ∧
         (window ≠ 0 → ∀ j, j < z → d.getD j 0 = (winElem k window ((first + j) / width)).getD ((first + j) % width) 0 ∧
           got.getD j none = none)
     reads (v64 x 0 + .ofInt 64 (off.toInt * z)) (.ldLoc pr lsid size off t0) ∧ reads (v64 x 0) (.ldLocacq pr lsid size t0)) ∧
  (∀ (pr : BitVec 2) (lsid : BitVec 5) (size : BitVec 3) (scope off : BitVec 4) (t0 : BitVec 8) (s : State) (b : Block)
     (sl : Slot) (x : Token),
     size.toNat < 5 → Fires s pr b sl → sl.a = some x → nullIn x 8 = true → targetFree b t0 = true →
     againOk s s.cur.1 s.cur.2.1 b false s.cur.2.2 = false → mayLoad s s.cur.1 s.cur.2.1 b false lsid.toNat = true →
     ∃ tk, IsResult (if size = 4 then 2 else 0) tk (fun _ => none) ∧
       (∀ i ∈ [Instr.ld pr lsid size off t0, .ldAcq pr lsid size scope t0, .ldLoc pr lsid size off t0,
         .ldLocacq pr lsid size t0], exec i s = .next (s.sends b [t0] tk)) ∧
       exec (.ldLast pr lsid size off t0) s = .next (s.fires b fun b =>
         putAt (s.cycle + s.lat) tk { b with arrived := b.arrived ||| (1 <<< lsid.toNat) } t0))

/-- R208, R213, R209: a store whose address and checks are good waits in the hold partition; no byte of memory changes before it
is performed. A store that is wholly null counts as arrived. R209, R218, R220, R221: the atomics without a result wait in the hold
partition; a null address or a null operand byte that they read makes them arrive and do nothing. -/
def Obligations.StoresAndSilentAtomicsAreHeld : Prop :=
  (∀ (pr : BitVec 2) (lsid : BitVec 5) (size : BitVec 3) (scope : BitVec 4) (off : BitVec 8) (s : State) (b : Block)
     (sl : Slot) (x y : Token),
     size.toNat < 5 → Fires s pr b sl → sl.a = some x → sl.b = some y →
     let z := sizeBytes size
     let k := s.core s.cur.1
     let d := tokBytes y z
     let a := v64 x 0 + .ofInt 64 (off.toInt * z)
     (nullIn x 8 = true ∨ nullAll y z = true →
       ∀ i ∈ [Instr.st pr lsid size off, .stRel pr lsid size scope, .stLoc pr lsid size off],
         exec i s = .next (s.arrives b lsid)) ∧
     (nullIn x 8 = false → nullAll y z = false →
       ((z = 64 → a.toNat % 64 = 0) → localOk k s.user k.protbase.toNat k.protlimit.toNat a z true = true →
         exec (.stLoc pr lsid size off) s = .next (s.holds b lsid (.store a true 0 d))) ∧
       ∀ (g : Word) (rel : BitVec 4) (i : Instr),
         (g, rel, i) ∈ [(a, 0, Instr.st pr lsid size off), (v64 x 0, scope, .stRel pr lsid size scope)] →
         (z = 64 → g.toNat % 64 = 0) → badPart s g (parts64 g z) = none →
         (∀ p ∈ parts64 g z, tlbAllows s (g + .ofNat 64 p.1) true = true) →
         ∃ t, exec i s = .next t ∧ HeldGlobal s t b lsid (.store g false rel d))) ∧
  (∀ (wide : BitVec 1) (pr : BitVec 2) (lsid : BitVec 5) (scope ord : BitVec 3) (off : BitVec 8) (s : State) (b : Block) (sl : Slot)
     (x y : Token),
     Fires s pr b sl → sl.a = some x → sl.b = some y →
     let k := s.core s.cur.1
     let loc := ord.getLsbD 2
     let rel : BitVec 4 := if ord.getLsbD 1 then scope.zeroExtend 4 else 0
     let held (n : Nat) (a : Word) (e : Eff) (i : Instr) : Prop :=
       a.toNat % 64 + n ≤ 64 →
       (loc = true → localOk k s.user k.protbase.toNat k.protlimit.toNat a n true = true →
         exec i s = .next (s.holds b lsid e)) ∧
       (loc = false → addrOk s (s.norm a) = true → tlbAllows s a true = true →
         ∃ t, exec i s = .next t ∧ HeldGlobal s t b lsid e)
     (∀ e ∈ amoNrTable,
       let w := wide = 1 ∧ e.2 ≠ 10
       let n := if w then 8 else 4
       let a := v64 x 0 + .ofInt 64 (off.toInt * n)
       if nullIn x 8 || nullIn y n then exec (e.1 wide pr lsid scope ord off) s = .next (s.arrives b lsid)
       else held n a (.amo a loc e.2 w (y.pay.extractLsb' 0 128) rel) (e.1 wide pr lsid scope ord off)) ∧
     ∀ e ∈ amoVecTable,
       let a := v64 x 0 + .ofInt 64 (off.toInt * 64)
       if nullIn x 8 || nullAll y 64 then exec (e.1 pr lsid scope ord off) s = .next (s.arrives b lsid)
       else held 64 a (.vamo a loc e.2 y rel) (e.1 pr lsid scope ord off))

/-- R219, R53: a returning atomic is pending when its operands arrive, and makes its block irrevocable when it issues. -/
def Obligations.ReturningAtomicsProbeThenIssue : Prop :=
  ∀ e ∈ amoRetTable, ∀ (wide : BitVec 1) (pr : BitVec 2) (lsid : BitVec 5) (scope ord : BitVec 3) (t0 : BitVec 8) (s : State)
    (b : Block),
    let i := e.1 wide pr lsid scope ord t0
    let k := s.core s.cur.1
    let loc := ord.getLsbD 2
    let w := wide = 1 ∧ e.2 ≠ 10
    let n := if w then 8 else 4
    (∀ (sl : Slot) (x y : Token), b.atomic = none → Fires s pr b sl → sl.a = some x → sl.b = some y →
      let a := v64 x 0
      let eff := Eff.amo a loc e.2 w (y.pay.extractLsb' 0 128) (if ord.getLsbD 1 then scope.zeroExtend 4 else 0)
      if nullIn x 8 || nullIn y (if e.2 = 9 then 2 * n else n) then
        targetFree b t0 = true → ∃ tk, IsResult 0 tk (fun _ => none) ∧ exec i s = .next (s.sends b [t0] tk)
      else a.toNat % 64 + n ≤ 64 →
        (loc = true → localOk k s.user k.protbase.toNat k.protlimit.toNat a n true = true →
          let p : PendAtomic := ⟨s.src lsid, s.entry s.cur.1 s.cur.2.1 lsid.toNat s.cur.2.2 eff 0 [], true, false⟩
          exec i s = .next (s.fires b fun b => { b with atomic := some p })) ∧
        (loc = false → addrOk s (s.norm a) = true → tlbAllows s a true = true →
          ∃ t b' p, exec i s = .next t ∧ SameBytes s t ∧ t.curBlock = some b' ∧ b'.atomic = some p ∧ p.src = s.src lsid ∧
            p.held.eff = eff ∧ p.issued = false)) ∧
    ∀ p, s.curBlock = some b → b.atomic = some p → p.src.idx = s.cur.2.2 → mayIssue s s.cur.1 b p = true →
      ∃ t b', exec i s = .next t ∧ SameBytes s t ∧ t.curBlock = some b' ∧ b'.irrev = true ∧ b'.held = [] ∧
        b'.atomic = some { p with issued := true }

/-- R216, R222-R224: the fences, INV and CLEAN are held effects that arrive when they fire, and LD.pf changes no architectural
state. -/
def Obligations.FencesAndCacheOperations : Prop :=
  ∀ (pr : BitVec 2) (lsid : BitVec 5) (scope : BitVec 3) (off : BitVec 4) (s : State) (b : Block) (sl : Slot),
    Fires s pr b sl →
    exec (.fenceAcq pr lsid scope) s = .next (s.holds b lsid (.fence 0 scope)) ∧
    exec (.fenceRel pr lsid scope) s = .next (s.holds b lsid (.fence 1 scope)) ∧
    exec (.fenceAr pr lsid scope) s = .next (s.holds b lsid (.fence 2 scope)) ∧
    ∀ x, sl.a = some x →
      (∃ t, exec (.ldPf pr lsid off) s = .next t ∧ SameBytes s t ∧ t.curBlock = some (fireMark b s.cur.2.2)) ∧
      ∀ y, sl.b = some y →
        let a := v64 x 0
        let n := v64 y 0
        if nullIn x 8 || nullIn y 8 then
          exec (.inv pr lsid) s = .next (s.arrives b lsid) ∧ exec (.clean pr lsid) s = .next (s.arrives b lsid)
        else
          exec (.inv pr lsid) s = .next (s.holds b lsid (.inv a n)) ∧
          (fieldsOk (s.norm a) = true → exec (.clean pr lsid) s = .next (s.holds b lsid (.clean a n)))

/-- R208, R209, R173, R176, R15: an access that breaks its alignment is MISALIGNED; an address of the Loft that the strand may not
use, and a global address whose fields are not legal or whose device cannot be reached, are PROTECTION; TVAL is the address and
TLSID the LSID. A part of a store is reported under its own address (log entry 62). -/
def Obligations.BadAccessesFault : Prop :=
  ∀ (wide : BitVec 1) (pr : BitVec 2) (lsid : BitVec 5) (size sc ord : BitVec 3) (scope offL : BitVec 4) (off t0 : BitVec 8) (s : State)
    (b : Block) (sl : Slot) (x y : Token),
    size.toNat < 5 → Fires s pr b sl → sl.a = some x → sl.b = some y → nullIn x 8 = false →
    let z := sizeBytes size
    let k := s.core s.cur.1
    let faults (cause : Nat) (a : Word) (i : Instr) : Prop :=
      exec i s = .next (raise (s.fires b id) s.cur.1 s.cur.2.1 cause a (some lsid.toNat))
    let forbidden (loc wr : Bool) (a : Word) (n : Nat) : Prop :=
      if loc then localOk k s.user k.protbase.toNat k.protlimit.toNat a n wr = false else addrOk s (s.norm a) = false
    let load (loc : Bool) (a : Word) (i : Instr) : Prop := LoadGoes s b lsid loc a z →
      (z = 64 → a.toNat % 64 ≠ 0 → faults 9 a i) ∧ ((z = 64 → a.toNat % 64 = 0) → forbidden loc false a z → faults 8 a i)
    let atomic (loc : Bool) (a : Word) (n : Nat) (i : Instr) : Prop :=
      (64 < a.toNat % 64 + n → faults 9 a i) ∧ (a.toNat % 64 + n ≤ 64 → forbidden loc true a n → faults 8 a i)
    let base := v64 x 0
    let offset := base + .ofInt 64 (offL.toInt * z)
    load false offset (.ld pr lsid size offL t0) ∧ load false base (.ldAcq pr lsid size scope t0) ∧
    load false offset (.ldLast pr lsid size offL t0) ∧ load true offset (.ldLoc pr lsid size offL t0) ∧
    load true base (.ldLocacq pr lsid size t0) ∧
    (nullAll y z = false →
      let a := base + .ofInt 64 (off.toInt * z)
      (z = 64 → a.toNat % 64 ≠ 0 → faults 9 a (.stLoc pr lsid size off)) ∧
      ((z = 64 → a.toNat % 64 = 0) → forbidden true true a z → faults 8 a (.stLoc pr lsid size off)) ∧
      ∀ e ∈ [(a, Instr.st pr lsid size off), (base, .stRel pr lsid size scope)],
        (z = 64 → e.1.toNat % 64 ≠ 0 → faults 9 e.1 e.2) ∧
        ((z = 64 → e.1.toNat % 64 = 0) → ∀ g, badPart s e.1 (parts64 e.1 z) = some g → faults 8 g e.2)) ∧
    (∀ e ∈ amoNrTable,
      let n := if wide = 1 ∧ e.2 ≠ 10 then 8 else 4
      nullIn y n = false → atomic (ord.getLsbD 2) (base + .ofInt 64 (off.toInt * n)) n (e.1 wide pr lsid sc ord off)) ∧
    (∀ e ∈ amoVecTable, nullAll y 64 = false →
      atomic (ord.getLsbD 2) (base + .ofInt 64 (off.toInt * 64)) 64 (e.1 pr lsid sc ord off)) ∧
    ∀ e ∈ amoRetTable,
      let n := if wide = 1 ∧ e.2 ≠ 10 then 8 else 4
      b.atomic = none → nullIn y (if e.2 = 9 then 2 * n else n) = false → atomic (ord.getLsbD 2) base n (e.1 wide pr lsid sc ord t0)

/-! ## Channels and messages -/

/-- R51, R333: CHPOP and CHPEK read behind the committed head, which they never move, and claim the channel. -/
def Obligations.ChannelReadsAreSpeculative : Prop :=
  ∀ (pr : BitVec 2) (lsid : BitVec 5) (dir : BitVec 2) (t0 : BitVec 8) (s : State) (b : Block) (sl : Slot) (n : Nat) (e : Token),
    Fires s pr b sl → popPlace b dir.toNat lsid.toNat = some n → mayPop s s.cur.1 s.cur.2.1 b lsid.toNat = true →
    let c := s.cur.1
    let h := (s.core c).chan dir.toNat
    let count (b : Block) : Nat := ((b.claims.find? fun x => x.1 == dir.toNat).map (·.2)).getD 0
    dirOk s c dir.toNat = true → (seen s h)[n]? = some e →
    (h.claim = none ∧ claimWaits s c s.cur.2.1 b = false ∧ (b.claims.any fun x => x.1 == dir.toNat) = false ∨
      h.claim = some s.cur.2.1 ∧ (b.claims.any fun x => x.1 == dir.toNat) = true) →
    let reads (k : Nat) (i : Instr) : Prop :=
      ∃ t b', exec i s = .next t ∧ SameBytes s t ∧ t.due = s.due ++ [.resultReturn none (s.src lsid) (.tok e)] ∧
        ((t.core c).chan dir.toNat) = { h with claim := some s.cur.2.1 } ∧
        t.curBlock = some b' ∧ b'.slots = (fireMark b s.cur.2.2).slots ∧ count b' = count b + k ∧
        b'.outst.length = b.outst.length + 1
    reads 1 (.chpop pr lsid dir t0) ∧ reads 0 (.chpek pr lsid dir t0)

/-- R52, R333, R336: a push reserves an entry of the neighbour's channel or waits; MSEND is held with its destination and class; a
direction or destination that may not be used is PROTECTION. -/
def Obligations.PushesReserveAndSendsAreHeld : Prop :=
  ∀ (pr : BitVec 2) (lsid : BitVec 5) (dir : BitVec 2) (cls : BitVec 4) (s : State) (b : Block) (sl : Slot) (x : Token),
    Fires s pr b sl → sl.a = some x →
    let c := s.cur.1
    let t := s.cur.2.1
    (dirOk s c dir.toNat = false → b.waits.contains s.cur.2.2 = false →
      exec (.chpsh pr lsid dir) s = .next (raise s c t 8 (dir.zeroExtend 64) (some lsid.toNat))) ∧
    (dirOk s c dir.toNat = true → nullAll x 64 = true → exec (.chpsh pr lsid dir) s = .next (s.arrives b lsid)) ∧
    (∀ n, dirOk s c dir.toNat = true → nullAll x 64 = false → neighbour c dir.toNat = some n →
      let h := (s.core n).chan (opposite dir.toNat)
      (8 ≤ h.ents.length + h.resv → ∃ u b', exec (.chpsh pr lsid dir) s = .next u ∧ u.curBlock = some b' ∧
        s.cur.2.2 ∈ b'.waits ∧ b'.slots = b.slots) ∧
      (h.ents.length + h.resv < 8 → ∃ u b' p, exec (.chpsh pr lsid dir) s = .next u ∧ SameBytes s u ∧
        (u.core n).chan (opposite dir.toNat) = { h with resv := h.resv + 1 } ∧ u.curBlock = some b' ∧
        b'.resv = b.resv ++ [dir.toNat] ∧ p ∈ b'.held ∧ p.lsid = lsid.toNat ∧ p.eff = .push dir.toNat x ∧
        b'.arrived = b.arrived ||| (1 <<< lsid.toNat))) ∧
    ∀ y, sl.b = some y →
      let g := v64 x 0
      if nullIn x 8 || nullAll y 64 then exec (.msend pr lsid cls) s = .next (s.arrives b lsid)
      else if g.toNat < 8192 ∧ (s.user = true → isSup g.toNat = false) then
        exec (.msend pr lsid cls) s = .next (s.holds b lsid (.send g.toNat cls.toNat y.pay))
      else exec (.msend pr lsid cls) s = .next (raise (s.fires b id) c t 8 g (some lsid.toNat))

/-! ## Exits and system forms -/

/-- R110, R339, R390, R44: the first exit that fires fixes the target, which is that of its form; a second one is MULTI_EXIT.
R110, R339, R390: the exits that may not be taken fault: a BRI to a null or unaligned target, HALT inside and HRET outside a
handler, TRET in user mode. -/
def Obligations.ExitsFixTheirTargetOrFault : Prop :=
  (∀ (pr : BitVec 2) (e : BitVec 3) (off : BitVec 18) (s : State) (b : Block) (sl : Slot),
     Fires s pr b sl →
     let exits (kind : ExitKind) (target : Word) (i : Instr) : Prop :=
       exec i s = .next (if b.exit = none then s.fires b fun b => { b with exit := some ⟨s.cur.2.2, kind, target⟩ }
         else raise (s.fires b id) s.cur.1 s.cur.2.1 3 (.ofNat 64 s.cur.2.2) none)
     exits .br (b.addr + off.signExtend 64 * 64) (.br pr e off) ∧
     exits .yield (b.addr + off.signExtend 64 * 64) (.yield pr e off) ∧
     exits (.scall off) (b.addr + .ofNat 64 (64 * (1 + (b.slots.length + 15) / 16))) (.scall pr e off) ∧
     (s.inHandler = false → exits .halt b.addr (.halt pr e)) ∧
     (s.inHandler = true → exits .hret b.addr (.hret pr e)) ∧
     (s.user = false → exits .tret b.addr (.tret pr e)) ∧
     ∀ x, sl.a = some x → nullIn x 8 = false → (v64 x 0).toNat % 64 = 0 → exits .bri (v64 x 0) (.bri pr e)) ∧
  (∀ (pr : BitVec 2) (e : BitVec 3) (s : State) (b : Block) (sl : Slot),
     Fires s pr b sl →
     let faults (cause : Nat) (tval : Word) (i : Instr) : Prop :=
       exec i s = .next (raise (s.fires b id) s.cur.1 s.cur.2.1 cause tval none)
     (s.inHandler = true → faults 2 (.ofNat 64 s.cur.2.2) (.halt pr e)) ∧
     (s.inHandler = false → faults 2 (.ofNat 64 s.cur.2.2) (.hret pr e)) ∧
     (s.user = true → faults 0x12 (.ofNat 64 s.cur.2.2) (.tret pr e)) ∧
     ∀ x, sl.a = some x → nullIn x 8 = true ∨ (v64 x 0).toNat % 64 ≠ 0 →
       ∃ t : Word, (∀ j, j < 8 → t.extractLsb' (8 * j) 8 = if x.nul.getLsbD j then 0xFF else x.pay.extractLsb' (8 * j) 8) ∧
         faults 9 t (.bri pr e))

/-- R388, R391-R394, R273: the forms of major 0x7D are held until their block commits; the privileged ones fault in user mode.
R103, R96, R401: SYSRD gives the register's value, at once or by a return, and of TIMEBASE the die's copy, within 4 ns of the slowest
(log 51, the model's choice); SYSWR is held until commit; a register that user mode does not reach is PRIVILEGE. -/
def Obligations.SystemFormsAndRegisterReads : Prop :=
  (∀ (pr : BitVec 2) (arg : BitVec 32) (s : State) (b : Block) (sl : Slot),
     Fires s pr b sl →
     let c := s.cur.1
     let t := s.cur.2.1
     let i := s.cur.2.2
     let held (f : Form) (x : Instr) : Prop := exec x s = .next (s.fires b fun b => { b with forms := b.forms ++ [(i, f)] })
     let privilege (tval : Word) (x : Instr) : Prop := exec x s = .next (raise (s.fires b id) c t 0x12 tval none)
     held (.wfi arg) (.wfi pr arg) ∧ held .align (.align pr arg) ∧ held (.dbgbrk (arg.extractLsb' 0 16)) (.dbgbrk pr arg) ∧
     (if s.user then privilege (.ofNat 64 i) (.trap pr arg) else held (.trap (arg.extractLsb' 0 16)) (.trap pr arg)) ∧
     ∀ x, sl.a = some x →
       (s.user = true → privilege (.ofNat 64 i) (.tlbinv pr arg) ∧ privilege 0 (.pmig pr arg)) ∧
       (s.user = false →
         (nullIn x 40 = true → exec (.tlbinv pr arg) s = .next (s.fires b id)) ∧
         (nullIn x 40 = false → tlbinvBad x = none → held (.tlbinv x) (.tlbinv pr arg)) ∧
         (nullIn x 32 = true → exec (.pmig pr arg) s = .next (s.fires b id)) ∧
         (nullIn x 32 = false → pmigBad s.sysnum x = false → inHbm (v64 x 1).toNat = true → (v64 x 1).toNat % 2^21 = 0 →
           held (.pmig x) (.pmig pr arg)))) ∧
  (∀ (pr : BitVec 2) (imm : BitVec 12) (t0 : BitVec 8) (s : State) (b : Block) (sl : Slot),
     assignedReg imm.toNat = true → Fires s pr b sl →
     let i := imm.toNat
     let c := s.cur.1
     let t := s.cur.2.1
     (i < 0x100 → targetFree b t0 = true → exec (.sysrd pr imm t0) s = .next (s.sends b [t0] (dTok (strandReg (s.strand c t) i).toNat))) ∧
     (0x100 ≤ i → i < 0x200 → targetFree b t0 = true →
       exec (.sysrd pr imm t0) s = .next (s.sends b [t0] (dTok (coreReg (s.core c) i).toNat))) ∧
     (i = 0x200 → targetFree b t0 = true → ∃ v : Word,
       exec (.sysrd pr imm t0) s = .next ({ s with timeRead := v }.sends b [t0] (dTok v.toNat)) ∧
       (s.timebase.toNat + 4 < 2^64 → s.timeRead.toNat ≤ s.timebase.toNat + 4 →
         s.timebase.toNat ≤ v.toNat ∧ v.toNat ≤ s.timebase.toNat + 4 ∧ s.timeRead.toNat ≤ v.toNat)) ∧
     (0x200 < i → if s.user then exec (.sysrd pr imm t0) s = .next (raise (s.fires b id) c t 0x12 (imm.zeroExtend 64) none)
       else ∃ u b' v, exec (.sysrd pr imm t0) s = .next u ∧ SameBytes s u ∧ u.curBlock = some b' ∧
         b'.outst.length = b.outst.length + 1 ∧ u.due = s.due ++ [.resultReturn none (s.src 0) (.tok (dTok v))] ∧
         (i = 0x202 → v = (thrmlim s.thermal).toNat) ∧ (i = 0x203 → v = (thrmrank s.thermal).toNat) ∧
         (i = 0x210 → v = s.ldcfg.toNat)) ∧
     ∀ x, sl.a = some x →
       if s.user && !userWrites i then exec (.syswr pr imm) s = .next (raise (s.fires b id) c t 0x12 (imm.zeroExtend 64) none)
       else if nullAll x 8 then exec (.syswr pr imm) s = .next (s.fires b id)
       else exec (.syswr pr imm) s = .next (s.fires b fun b => { b with sysw := b.sysw ++ [(s.cur.2.2, imm, (s.core c).slsel, x)] }))

/-! ## System registers -/

/-- R97, R12, R381: a write of a strand register changes the bits that the register has and no other register; NFLAG is cleared by
ones; a write of TBLK also sets where a TRET goes. R99, R12, R25: a write of a core register changes the bits that the register
has and no other register; MATCFG does not change. -/
def Obligations.StrandAndCoreRegisterWrites : Prop :=
  (∀ (s : State) (c t i : Nat) (v : Word), i < 10 →
     let u := writeStrandReg s c t i v
     (∀ j, j < 10 → strandReg (u.strand c t) j =
       if j = i then (if i = 6 then (s.strand c t).nflag &&& ~~~(v &&& 1) else v &&& strandMask i) else strandReg (s.strand c t) j) ∧
     (u.strand c t).resume = (if i = 3 then v &&& ~~~63 else (s.strand c t).resume) ∧
     (u.strand c t).g = (s.strand c t).g ∧ (u.strand c t).v = (s.strand c t).v ∧ (u.strand c t).bpc = (s.strand c t).bpc ∧
     (∀ d k, (d, k) ≠ (c, t) → u.strand d k = s.strand d k) ∧ SameBytes s u) ∧
  (∀ (s : State) (c i : Nat) (v : Word), 0x100 ≤ i → i < 0x129 → assignedReg i = true →
     let u := writeCoreReg s c i v
     (∀ j, 0x100 ≤ j → j < 0x129 → assignedReg j = true → coreReg (u.core c) j =
       if j = i ∧ i ≠ 0x126 then v &&& coreMask c i else coreReg (s.core c) j) ∧
     (∀ t, u.strand c t = s.strand c t) ∧ (∀ d, d ≠ c → u.core d = s.core d) ∧ SameBytes s u)

/-- R103, R185, R381: TBLK_WRITE, MODULE_REGISTER_WRITE and WAYMASK_WRITE complete: the register takes the bytes written, a null
byte keeps the register's byte, and the issuer has its acknowledgement. FLUSH takes what is written; TILE changes only where every
way that it changes drains, as this write leaves FLUSH, and is empty, and the FLUSH bits of those ways are then cleared. A way that
holds a granule of a version is not empty, one that holds neither that nor a line is; of a way that may hold a line it is free. -/
def Obligations.RegisterWriteEvents : Prop :=
  (∀ (s : State) (c t : Nat) (v : Word), Does .tblkWrite (.tblkWrite c t v) s fun u =>
    u.strand c t = { s.strand c t with tblk := v, resume := v &&& ~~~63 } ∧
    (∀ d k, (d, k) ≠ (c, t) → u.strand d k = s.strand d k) ∧ SameBytes s u) ∧
  (∀ (s : State) (index : BitVec 12) (v : Word) (n : BitVec 8) (src : Src),
    index ∈ [0x202, 0x203, (0x210 : BitVec 12)] →
    Does .moduleRegisterWrite (.moduleRegisterWrite index v n src) s fun u => SameBytes s u ∧
      (u.strand src.core src.strand).ackRegs = (s.strand src.core src.strand).ackRegs - 1 ∧
      ∃ x : Word,
        MergedInto (if index = 0x202 then thrmlim s.thermal else if index = 0x203 then thrmrank s.thermal else s.ldcfg.zeroExtend 64)
          ⟨v.zeroExtend 512, n.zeroExtend 64⟩ x ∧
        thrmlim u.thermal = (if index = 0x202 then x &&& 0x0FFF01FF else thrmlim s.thermal) ∧
        thrmrank u.thermal = (if index = 0x203 then x &&& 0xF else thrmrank s.thermal) ∧
        u.ldcfg = (if index = 0x210 then x.extractLsb' 0 14 else s.ldcfg)) ∧
  ∀ (s : State) (k : Nat) (v : Word) (n : BitVec 8) (src : Src), Does .waymaskWrite (.waymaskWrite k v n src) s fun u =>
    let old := s.slice k
    let new := u.slice k
    let holds (w : Nat) : Bool := old.vers.any fun e => inWay e w
    (u.strand src.core src.strand).ackRegs = (s.strand src.core src.strand).ackRegs - 1 ∧
    (∀ j, j ≠ k → u.slice j = s.slice j) ∧ (NoPool s → SameBytes s u) ∧
    ∃ (x : Word) (empty : BitVec 16),
      MergedInto (.ofNat 64 (old.tile.toNat + 2^16 * old.flush.toNat) : Word) ⟨v.zeroExtend 512, n.zeroExtend 64⟩ x ∧
      (∀ w, w < 16 → (holds w = true → empty.getLsbD w = false) ∧
        (holds w = false → old.maybe.getLsbD w = false → empty.getLsbD w = true)) ∧
      let tile := x.extractLsb' 0 16
      let flush := x.extractLsb' 16 16
      let changed := tile ^^^ old.tile
      ((∀ w, w < 16 → changed.getLsbD w = true → flush.getLsbD w = true ∧ empty.getLsbD w = true) →
        new.tile = tile ∧ new.flush = flush &&& ~~~changed) ∧
      ((∃ w, w < 16 ∧ changed.getLsbD w = true ∧ (flush.getLsbD w = false ∨ empty.getLsbD w = false)) →
        new.tile = old.tile ∧ new.flush = flush)

/-! ## Tile instructions -/

/-- R247, R248, R250, R252: the forms on the version tables that make no answer wait in the hold partition with the request that
their operands name; with a null they arrive and do nothing; a reference with VER 0 is TILE_STATE. R245, R248, R250: the forms on
the local tiles that make no answer wait in the hold partition. -/
def Obligations.TileFormsAreHeld : Prop :=
  (∀ (pr : BitVec 2) (lsid : BitVec 5) (pin hbm : BitVec 1) (size : BitVec 3) (arg : BitVec 32) (s : State) (b : Block) (sl : Slot)
     (x : Token),
     Fires s pr b sl → sl.a = some x → tileClash b s.cur.2.2 = none →
     let y := sl.b.getD noTok
     let g := v64 x 0
     let l0 := v64 y 0
     let l1 := v64 y 1
     let n := arg.toNat
     let z := sizeBytes size
     let off := if z = 64 then n else n + l1.toNat
     let r := s.treq lsid g
     let held (i : Instr) (null ok : Bool) (p : Packet) : Prop := encode i = [sl.word, arg] →
       (null = true → exec i s = .next (s.arrives b lsid)) ∧
       (null = false → g.toNat % 2^32 = 0 →
         exec i s = .next (raise (s.fires b id) s.cur.1 s.cur.2.1 0xB g (some lsid.toNat))) ∧
       (null = false → g.toNat % 2^32 ≠ 0 → ok = true → exec i s = .next (s.holds b lsid (.tile p)))
     let one (i : Instr) (ok : Bool) (p : Packet) : Prop := held i (nullIn x 8) ok p
     (sl.b.isSome = true →
       held (.tnew pr lsid pin hbm arg) (nullIn x 8 || nullIn y 8)
         (n < 2^15 && bits l0 28 4 == 0 && bits l0 60 4 == 0 && bits l0 32 28 ≤ bits l0 0 28)
         (.tnewAtHome r { size := bits l0 0 28, pend := bits l0 32 28, refs := n % 2^12, fmt := .ofNat 4 (n / 2^12), pin := pin == 1,
                          hbm := hbm == 1, proxy := none, fork := none }) ∧
       (size.toNat < 5 → held (.tst pr lsid size arg)
         (nullIn x 8 || nullAll y z || (z != 64 && (List.range 8).any fun j => y.nul.getLsbD (8 + j)))
         (off < 2^28 && (z != 64 || off % 64 == 0)) (.tstAtHome r off (tokBytes y z))) ∧
       held (.tfork pr lsid arg) (nullIn x 8 || nullIn y 16)
         (n < 2^12 && bits l0 0 32 != 0 && bits l1 28 4 == 0 && bits l1 60 4 == 0 && bits l1 0 28 ≤ bits l1 32 28)
         (.tforkAtHome r (refOf r.ref.asid l0) (bits l1 0 28) (bits l1 32 28) n) ∧
       held (.talias pr lsid arg) (nullIn x 8 || nullIn y 8)
         (n < 2^12 && bits l0 0 32 != 0 && bits g 32 32 == bits l0 32 32) (.taliasAtHome r (.ofNat 32 (bits l0 0 32)) n) ∧
       held (.tguard pr lsid arg) (nullIn x 8 || nullIn y 8) (n == 0 && bits l0 0 32 != 0) (.tguardAtHome r (refOf r.ref.asid l0))) ∧
     one (.tseal pr lsid arg) (n / 2^28 % 8 == 0) (.tsealAtHome r false (arg.getLsbD 31) (n % 2^28)) ∧
     one (.tsealEnd pr lsid arg) (n / 2^28 % 8 == 0) (.tsealAtHome r true (arg.getLsbD 31) (n % 2^28)) ∧
     one (.thold pr lsid arg) (n == 0) (.tholdAtHome r) ∧
     one (.trel pr lsid arg) (n == 0) (.decrementAtHome r) ∧
     one (.tsub pr lsid arg) (n < 2^19 && n % 128 != 0x7F)
       (.tnewAtHome r { size := 0, pend := 0, refs := n / 2^7, fmt := 0, pin := false, hbm := false, proxy := some (n % 128),
                        fork := none }) ∧
     one (.tpin pr lsid arg) (n == 0) (.tpinAtHome r true) ∧
     one (.tunpin pr lsid arg) (n == 0) (.tpinAtHome r false) ∧
     one (.tmove pr lsid hbm arg) (n == 0) (.tmoveAtHome r (hbm == 1))) ∧
  (∀ (pr : BitVec 2) (lsid : BitVec 5) (fin : BitVec 1) (size : BitVec 3) (arg : BitVec 32) (s : State) (b : Block) (sl : Slot)
     (x : Token),
     Fires s pr b sl → sl.a = some x → tileClash b s.cur.2.2 = none →
     let y := sl.b.getD noTok
     let g := v64 x 0
     let l0 := v64 y 0
     let l1 := v64 y 1
     let n := arg.toNat
     let z := sizeBytes size
     let off := if z = 64 then n else n + l1.toNat
     let k := s.core s.cur.1
     let room (a m : Nat) : Bool := rawOk s.user k.protbase.toNat k.protlimit.toNat a m
     let good (w : Word) : Bool := bits w 16 16 == 0 && bits w 38 26 == 0
     let held (i : Instr) (null ok : Bool) (q : LTile) : Prop := encode i = [sl.word, arg] →
       (null = true → exec i s = .next (s.arrives b lsid)) ∧
       (null = false → good g = false →
         exec i s = .next (raise (s.fires b id) s.cur.1 s.cur.2.1 0xB g (some lsid.toNat))) ∧
       (null = false → good g = true → ok = true → exec i s = .next (s.holds b lsid (.ltile (bits g 32 6) (bits g 0 16) q)))
     (sl.b.isSome = true →
       held (.tnewLoc pr lsid arg) (nullIn x 8 || nullIn y 8)
         (n < 2^12 && n / 2^8 < 8 && bits l0 51 13 == 0 && bits l0 17 17 ≤ bits l0 0 17 && bits l0 34 17 % 64 == 0 &&
           room (bits l0 34 17) (bits l0 0 17))
         (.tnew (bits l0 0 17) (bits l0 17 17) (bits l0 34 17) (n % 2^8) (.ofNat 4 (n / 2^8))) ∧
       (size.toNat < 5 → held (.tstLoc pr lsid size arg)
         (nullIn x 8 || nullAll y z || (z != 64 && (List.range 8).any fun j => y.nul.getLsbD (8 + j)))
         (off < 2^28 && (z != 64 || off % 64 == 0)) (.tst off (tokBytes y z))) ∧
       held (.tforkLoc pr lsid arg) (nullIn x 8 || nullIn y 16)
         (n < 2^8 && good l0 && bits l1 51 13 == 0 && bits l1 0 17 ≤ bits l1 17 17 && bits l1 34 17 % 64 == 0 &&
           room (bits l1 34 17) (bits l1 17 17))
         (.tfork (bits l0 32 6) (bits l0 0 16) (bits l1 0 17) (bits l1 17 17) (bits l1 34 17) n) ∧
       held (.taliasLoc pr lsid arg) (nullIn x 8 || nullIn y 8) (n < 2^8 && good l0) (.talias (bits l0 32 6) (bits l0 0 16) n)) ∧
     held (.tsealLoc pr lsid fin arg) (nullIn x 8) (n / 2^28 % 8 == 0) (.tseal (fin == 1) (arg.getLsbD 31) (n % 2^28)) ∧
     held (.tholdLoc pr lsid arg) (nullIn x 8) (n == 0) .thold ∧
     held (.trelLoc pr lsid arg) (nullIn x 8) (n == 0) .decrement)

/-- R251, R259, R260: TLD, TWAIT and TQRY send their request at once and wait for the answer; with a null they give a null token.
R244, R245, R251: TLD.loc and TWAIT.loc are answered from the local version table and, where stores before a TLD.loc forward
its bytes (R48), from them, or wait on the version; TQRY.loc gives its entry. -/
def Obligations.TileReads : Prop :=
  (∀ (pr : BitVec 2) (lsid : BitVec 5) (size : BitVec 3) (last tile : BitVec 1) (t0 : BitVec 8) (arg : BitVec 32) (s : State)
     (b : Block) (sl : Slot) (x : Token),
     Fires s pr b sl → sl.a = some x → tileClash b s.cur.2.2 = none → size.toNat < 5 →
     let y := sl.b.getD noTok
     let g := v64 x 0
     let z := sizeBytes size
     let off := (v64 y 0).toNat + arg.toNat
     let r := s.treq lsid g
     let goes (i : Instr) (z : Nat) (ref : Option Ref) (p : Packet) : Prop := ∃ u b' o, exec i s = .next u ∧ SameBytes s u ∧
       u.due = s.due ++ [p] ∧ u.curBlock = some b' ∧ b'.slots = (fireMark b s.cur.2.2).slots ∧ b'.outst = b.outst ++ [o] ∧
       o.idx = s.cur.2.2 ∧ o.lsid = lsid.toNat ∧ o.z = z ∧ o.ref = ref
     let asks (i : Instr) (nul : BitVec 3) (ref : Option Ref) (p : Packet) : Prop := encode i = [sl.word, arg] →
       (nullIn x 8 = true → targetFree b t0 = true →
         ∃ tk, IsResult nul tk (fun _ => none) ∧ exec i s = .next (s.sends b [t0] tk)) ∧
       (nullIn x 8 = false → g.toNat % 2^32 ≠ 0 → arg = 0 → goes i 0 ref p)
     let turn := mayRead s s.cur.1 s.cur.2.1 b false lsid.toNat = true ∧ ∀ o ∈ b.outst, o.idx ≠ s.cur.2.2
     (turn → sl.b.isSome = true → encode (.tld pr lsid size last t0 arg) = [sl.word, arg] →
       (nullIn x 8 || nullIn y 8 = true → targetFree b t0 = true → ∃ tk, IsResult (if size = 4 then 2 else 0) tk (fun _ => none) ∧
         exec (.tld pr lsid size last t0 arg) s = .next (s.fires b fun b =>
           putAt (s.cycle + s.lat) tk (if last = 1 then { b with arrived := b.arrived ||| (1 <<< lsid.toNat) } else b) t0)) ∧
       ((nullIn x 8 || nullIn y 8) = false → g.toNat % 2^32 ≠ 0 → off < 2^28 → (z = 64 → off % 64 = 0) →
         goes (.tld pr lsid size last t0 arg) z (some r.ref) (.tldAtHome r off z))) ∧
     (turn → asks (.twait pr lsid t0 arg) 0 (some r.ref) (.twaitAtHome r)) ∧
     asks (.tqry pr lsid tile t0 arg) 2 none (.tqryAtHome r (tile == 1))) ∧
  (∀ (pr : BitVec 2) (lsid : BitVec 5) (size : BitVec 3) (last : BitVec 1) (t0 : BitVec 8) (arg : BitVec 32) (s : State)
     (b : Block) (sl : Slot) (x : Token),
     Fires s pr b sl → sl.a = some x → tileClash b s.cur.2.2 = none → size.toNat < 5 → nullIn x 8 = false →
     let y := sl.b.getD noTok
     let g := v64 x 0
     let z := sizeBytes size
     let off := (v64 y 0).toNat + arg.toNat
     let c := s.cur.1
     let good (w : Word) : Bool := bits w 16 16 == 0 && bits w 38 26 == 0
     let answers (i : Instr) (rd : LRead) : Prop :=
       ∃ u b', exec i s = .next u ∧ u.curBlock = some b' ∧ b'.slots = (fireMark b s.cur.2.2).slots ∧
         b'.outst.length = b.outst.length + 1 ∧
         (match lvtLook s c rd.l rd.v with
          | some a => .resultReturn none (s.src lsid) (lvtRet s (s.src lsid) rd a) ∈ u.due
          | none => u.due = s.due ∧ s.cur.2.2 ∈ b'.waits ∧ (u.lvt c rd.l).wait.getLsbD s.cur.2.1 = true)
     s.cur.2.1 < 16 → good g = true →
     let turn := mayRead s s.cur.1 s.cur.2.1 b true lsid.toNat = true
     (turn → sl.b.isSome = true → encode (.tldLoc pr lsid size last t0 arg) = [sl.word, arg] → nullIn y 8 = false →
       off < 2^28 → (z = 64 → off % 64 = 0) →
       let e := s.lvt c (bits g 32 6)
       answers (.tldLoc pr lsid size last t0 arg) ⟨bits g 32 6, .ofNat 16 (bits g 0 16), g, some (off, z)⟩ ∧
       (lvtLook s c (bits g 32 6) (.ofNat 16 (bits g 0 16)) = some .readable → off + z ≤ e.size → (s.core c).loftPoison = [] →
         ∃ u d, exec (.tldLoc pr lsid size last t0 arg) s = .next u ∧ .resultReturn none (s.src lsid) (.tok (readTok z d)) ∈ u.due ∧
           d.length = z ∧ ∀ j, j < z → ∃ f, ForwardsTo s b lsid.toNat true (lvtAt s c e off + j) f ∧
             d[j]? = some (f.getD (memRead (s.core c).loft (lvtAt s c e off + j))))) ∧
     (turn → arg = 0 → encode (.twaitLoc pr lsid t0 arg) = [sl.word, arg] →
       answers (.twaitLoc pr lsid t0 arg) ⟨bits g 32 6, .ofNat 16 (bits g 0 16), g, none⟩) ∧
     (arg = 0 → encode (.tqryLoc pr lsid t0 arg) = [sl.word, arg] →
       ∃ u b', exec (.tqryLoc pr lsid t0 arg) s = .next u ∧ SameBytes s u ∧ u.curBlock = some b' ∧
         b'.outst.length = b.outst.length + 1 ∧
         u.due = s.due ++ [.resultReturn none (s.src lsid) (.tok (lvtImage (s.lvt c (bits g 32 6))))]))

/-! ## Commands -/

/-- R302, R308, R309: the matrix instructions hold their command, or fault where their configuration, descriptor or range is bad.
R322, R323, R330, R347-R349: the engine and link instructions hold their command where their checks pass, and raise what the checks
find: the first that fails, in the rules' order, with its cause and TVAL.
R289-R295: SARR, SSET and SBLD hold their request to the Larder; SNEW and SQRY send it and wait for the answer. -/
def Obligations.CommandFormsAreHeld : Prop :=
  (∀ (pr : BitVec 2) (lsid : BitVec 5) (tr inf clr : BitVec 1) (rows : BitVec 5) (ofmt : BitVec 3) (arg : BitVec 32) (s : State)
     (b : Block) (sl : Slot),
     Fires s pr b sl →
     let cmd (a : Token) : Eff := .cmd sl.word arg a noTok
     let l := some lsid.toNat
     let k := s.core s.cur.1
     let faults (cause : Nat) (tval : Word) (i : Instr) : Prop :=
       exec i s = .next (raise (s.fires b id) s.cur.1 s.cur.2.1 cause tval l)
     (if matCfgOk arg.toNat then exec (.mcfg pr lsid arg) s = .next (s.holds b lsid (cmd noTok))
       else faults 0x10 (arg.zeroExtend 64) (.mcfg pr lsid arg)) ∧
     exec (.mswap pr lsid arg) s = .next (s.holds b lsid (cmd noTok)) ∧
     exec (.mzero pr lsid rows arg) s = .next (s.holds b lsid (cmd noTok)) ∧
     ∀ x, sl.a = some x →
       let d := matDesc x
       let shape := d.dk < 3 ∧ d.ck < 3 ∧ bits (v64 x 1) 31 33 = 0 ∧ d.stride ≠ 0 ∧ bits (v64 x 2) 28 36 = 0 ∧
         (d.dk = 0 → v64 x 2 = 0 ∧ d.a.toNat % 16 = 0) ∧
         (d.dk ≠ 0 → cmdRefOk (d.dk == 1) d.a = true ∧ d.off + d.rows * d.stride ≤ 2^28) ∧
         (d.ck ≠ 0 → cmdRefOk (d.ck == 1) d.c = true)
       let range (wr : Bool) := d.dk = 0 →
         rangeOk k s.user k.protbase.toNat k.protlimit.toNat d.a (d.rows * d.stride) wr = true
       let held (own wr : Prop) (i : Instr) : Prop :=
         (nullIn x 32 = true → exec i s = .next (s.arrives b lsid)) ∧
         (nullIn x 32 = false → shape → own → wr → exec i s = .next (s.holds b lsid (cmd x))) ∧
         (nullIn x 32 = false → bits (v64 x 2) 28 36 ≠ 0 → faults 0x10 (v64 x 2) i)
       held (d.rows = 64 ∧ d.first = 0) (range false) (.mlds pr lsid tr arg) ∧
       held (d.dk ≠ 2) (range false) (.mstr pr lsid arg) ∧
       held (d.rows ≤ 128 ∧ d.first + d.rows ≤ 128 ∧ 64 * mdrnWidth ofmt.toNat ≤ d.stride) (range true)
         (.mdrn pr lsid ofmt inf clr arg)) ∧
  (∀ (pr : BitVec 2) (lsid : BitVec 5) (loc fold ifmt : BitVec 1) (ofmt : BitVec 2) (es : BitVec 3) (arg : BitVec 32) (s : State)
     (b : Block) (sl : Slot) (x : Token),
     Fires s pr b sl → sl.a = some x →
     let n := arg.toNat % 2^28
     let l := some lsid.toNat
     let outcome (i : Instr) (null : Bool) (bad : Option (Nat × Word)) (y : Token) : Prop :=
       exec i s = .next (if null then s.arrives b lsid else match bad with
         | some (cause, tval) => raise (s.fires b id) s.cur.1 s.cur.2.1 cause tval l
         | none => s.holds b lsid (.cmd sl.word arg x y))
     outcome (.xcan pr lsid loc arg) (nullIn x 8)
       (if cmdRefOk (loc == 1) (v64 x 0) then none else some (0xB, v64 x 0)) noTok ∧
     ∀ y, sl.b = some y →
       let nullXY (j m : Nat) : Bool := nullIn x j || nullIn y m
       outcome (.xcopy pr lsid arg) (nullXY 32 32) (engChecks s ⟨0, false, 1, n⟩ (some x) y) y ∧
       outcome (.xcopyExp pr lsid arg) (nullXY 32 32) (engChecks s ⟨0, true, 1, n⟩ (some x) y) y ∧
       outcome (.xgath pr lsid es arg) (nullXY 32 32) (engChecks s ⟨1, false, sizeBytes es, n⟩ (some x) y) y ∧
       outcome (.xscat pr lsid es arg) (nullXY 32 32) (engChecks s ⟨2, false, sizeBytes es, n⟩ (some x) y) y ∧
       outcome (.xfill pr lsid arg) (nullXY 8 32) (engChecks s ⟨3, false, 1, n⟩ none y) y ∧
       outcome (.xput pr lsid arg) (nullXY 48 40) (linkChecks s ⟨false, false, false, 3, 0, n⟩ x y) y ∧
       outcome (.xputEfq pr lsid fold ofmt ifmt arg) (nullXY 48 40)
         (linkChecks s ⟨false, true, fold == 1, 3 + ofmt.toNat, ifmt.toNat, n⟩ x y) y ∧
       outcome (.xputFold pr lsid ifmt arg) (nullXY 48 40) (linkChecks s ⟨false, false, true, 3, ifmt.toNat, n⟩ x y) y ∧
       outcome (.xget pr lsid arg) (nullXY 16 32) (linkChecks s ⟨true, false, false, 3, 0, n⟩ y x) y) ∧
  (∀ (s : State) (f : EngForm) (src : Option Token) (dst : Token), f.fn ≤ 3 → (f.fn = 3 ↔ src = none) → (f.exp = true → f.fn = 0) →
     let x := src.getD noTok
     let a := endpoint x
     let d := endpoint dst
     let two : Bool := src.isSome
     let index : Bool := f.fn == 1 || f.fn == 2
     let idx := if f.fn = 1 then a.lane2 else d.lane2
     let reads := if f.fn = 0 then f.n else if f.fn = 2 then f.n * f.es else 0
     let writes := if f.fn = 0 then (if f.exp then f.n * expWidth a.lane2 else f.n) else if f.fn = 1 then f.n * f.es else if f.fn = 3 then f.n else 0
     let lane1 (t : Token) (e : Endpoint) (dest : Bool) : Bool :=
       bits (v64 t 1) 15 1 != 0 || bits (v64 t 1) 46 18 != 0 || e.ck == 3 || (!dest && e.ck != 0) ||
       (if e.kind == 1 || e.kind == 3 then decide (8192 ≤ e.core) else e.core != 0) || (decide (e.kind < 2) && e.off != 0) ||
       (dest && decide (e.kind < 2) && e.ck == 0) || (f.exp && if dest then e.kind != 1 else e.kind != 2 || e.off % 32 != 0)
     let lane2 (e : Endpoint) (list : Bool) : Bool :=
       if list then bits e.lane2 17 3 != 0 || bits e.lane2 48 16 != 0 else e.lane2 != 0
     let k := s.core s.cur.1
     let loft (e : Endpoint) (n : Nat) (wr : Bool) : Bool :=
       e.kind == 1 && e.core == s.cur.1 && !rangeOk k s.user k.protbase.toNat k.protlimit.toNat e.a n wr
     let steps : List (Bool × Nat × Word) := [
       (two && lane1 x a false, 0x11, 1),
       (two && (if f.exp then bits a.lane2 12 20 != 0 || bits a.lane2 60 4 != 0 || bits a.lane2 5 2 == 3 else lane2 a (f.fn == 1)), 0x11, 2),
       (lane1 dst d true, 0x11, 9), (lane2 d (f.fn == 2), 0x11, 10), (index && f.n == 0, 0x11, 16),
       (two && decide (2 ≤ a.kind) && !cmdRefOk (a.kind == 3) a.a, 0xB, a.a),
       (decide (2 ≤ d.kind) && !cmdRefOk (d.kind == 3) d.a, 0xB, d.a), (d.ck != 0 && !cmdRefOk (d.ck == 1) d.c, 0xB, d.c),
       (two && decide (2 ≤ a.kind) && decide (2^28 < a.off + reads), 0xB, a.a),
       (decide (2 ≤ d.kind) && decide (2^28 < d.off + writes), 0xB, d.a),
       (two && a.kind == 0 && !fieldsOk a.a, 8, a.a), (d.kind == 0 && !fieldsOk d.a, 8, d.a),
       (index && bits idx 0 17 % 4 != 0, 9, .ofNat 64 (bits idx 0 17)),
       (two && f.fn != 1 && loft a reads false, 8, a.a), (f.fn != 2 && loft d writes true, 8, d.a),
       (index && !rawOk s.user k.protbase.toNat k.protlimit.toNat (bits idx 0 17) (4 * f.n), 8, .ofNat 64 (bits idx 0 17))]
     engChecks s f src dst = (steps.find? (·.1)).map (·.2)) ∧
  (∀ (s : State) (f : LinkForm) (near far : Token), (f.get = true → f.efq = false ∧ f.fold = false) →
     let e := endpoint near
     let d := remDesc far
     let r := residOf near
     let l (t : Token) (i lo n : Nat) : Nat := bits (v64 t i) lo n
     let peer : Bool := decide (d.node < 0x7F) && d.node != s.sysnum.toNat
     let plain : Bool := !f.efq && !f.fold
     let kiln : Bool := f.efq || f.fold
     let nearSteps (o : Nat) : List (Bool × Nat × Word) := [
       (l near 1 15 1 != 0 || l near 1 46 18 != 0 || e.ck == 3 || (f.get && decide (e.kind < 2) && e.ck == 0) ||
          (if e.kind == 1 || e.kind == 3 then decide (8192 ≤ e.core) else e.core != 0) || (decide (e.kind < 2) && e.off != 0) ||
          (f.efq && e.kind != 2), 0x11, .ofNat 64 (o + 1)),
       (!f.efq && e.lane2 != 0, 0x11, .ofNat 64 (o + 2)),
       (!f.get && (if f.efq then l near 4 45 19 != 0 else v64 near 4 != 0), 0x11, .ofNat 64 (o + 4)),
       (!f.get && (if f.efq then l near 5 28 36 != 0 else v64 near 5 != 0), 0x11, .ofNat 64 (o + 5))]
     let farSteps (o : Nat) : List (Bool × Nat × Word) := [
       (d.dk == 0 && !peer, 0x11, .ofNat 64 o),
       (d.dk == 1 || d.dk == 3 || l far 1 9 7 != 0 || l far 1 44 20 != 0 || (d.dk == 0 && l far 1 2 7 != 0) || (d.dk == 2 && !peer) ||
          (kiln && d.dk != 2) || (f.efq && d.off % 32 != 0), 0x11, .ofNat 64 (o + 1)),
       (!f.get && !f.efq && v64 far 2 != 0, 0x11, .ofNat 64 (o + 2)),
       (!f.get && (l far 3 40 24 != 0 || (plain && v64 far 3 != 0) || (!f.fold && l far 3 6 6 != 0) ||
          ((f.fold || plain) && l far 3 12 28 != 0) || (f.fold && decide (l far 3 6 6 < l far 3 0 6)) ||
          (f.efq && !f.fold && decide (l far 3 12 28 < d.off + f.n))), 0x11, .ofNat 64 (o + 3)),
       (!f.get && (if f.fold then l far 4 32 32 != 0 else v64 far 4 != 0), 0x11, .ofNat 64 (o + 4))]
     let n := f.n * (if plain then 1 else if f.ifmt = 1 then 4 else 2)
     let k := s.core s.cur.1
     let steps := (if f.get then farSteps 0 ++ nearSteps 8 else nearSteps 0 ++ farSteps 8) ++ [
       (f.efq && f.n % 32 != 0, 0x11, 16),
       (decide (2 ≤ e.kind) && !cmdRefOk (e.kind == 3) e.a, 0xB, e.a), (e.ck != 0 && !cmdRefOk (e.ck == 1) e.c, 0xB, e.c),
       (f.efq && !cmdRefOk false r.rin, 0xB, r.rin), (f.efq && !cmdRefOk false r.out, 0xB, r.out),
       (d.dk == 2 && !cmdRefOk false d.a, 0xB, d.a),
       (decide (2 ≤ e.kind) && decide (2^28 < e.off + n), 0xB, e.a),
       (f.efq && decide (2^28 < r.off + f.n * (if r.bf16 then 2 else 4)), 0xB, r.rin),
       (d.dk == 2 && decide (2^28 < d.off + f.n), 0xB, d.a),
       ((s.portTo d.node).isNone, 8, v64 far 1), (e.kind == 0 && !fieldsOk e.a, 8, e.a),
       (e.kind == 1 && e.core == s.cur.1 && !rangeOk k s.user k.protbase.toNat k.protlimit.toNat e.a n f.get, 8, e.a)]
     linkChecks s f near far = (steps.find? (·.1)).map (·.2)) ∧
  (∀ (pr : BitVec 2) (lsid : BitVec 5) (fin : BitVec 1) (budget : BitVec 5) (t0 : BitVec 8) (arg : BitVec 32) (s : State) (b : Block)
     (sl : Slot),
     Fires s pr b sl →
     exec (.sbld pr lsid budget arg) s = .next (s.holds b lsid (.larder (.sbld (256 * (budget.toNat + 1)) arg))) ∧
     ∀ x, sl.a = some x →
       let h := v64 x 0
       let held (i : Instr) (m : Nat) (q : LReq) : Prop :=
         exec i s = .next (if nullIn x m then s.arrives b lsid else s.holds b lsid (.larder q))
       let asks (i : Instr) (null : Bool) (nul : BitVec 3) (die : Nat) (q : LReq) : Prop :=
         (null = true → targetFree b t0 = true → ∃ tk, IsResult nul tk (fun _ => none) ∧ exec i s = .next (s.sends b [t0] tk)) ∧
         (null = false → ∃ u b', exec i s = .next u ∧ SameBytes s u ∧ u.curBlock = some b' ∧
           b'.slots = (fireMark b s.cur.2.2).slots ∧ b'.outst.length = b.outst.length + 1 ∧
           u.due = s.due ++ [.larderRequest die q (s.src lsid) (s.core s.cur.1).asid 0 none none])
       held (.sarr pr lsid fin arg) 16 (.sarr h (bits (v64 x 1) 0 24) (fin == 1)) ∧
       held (.ssetPdone pr lsid arg) 8 (.sset 0 h (v64 x 1)) ∧ held (.ssetIdle pr lsid arg) 8 (.sset 1 h (v64 x 1)) ∧
       held (.ssetFinish pr lsid arg) 8 (.sset 2 h (v64 x 1)) ∧ held (.ssetPause pr lsid arg) 8 (.sset 3 h (v64 x 1)) ∧
       held (.ssetResume pr lsid arg) 8 (.sset 4 h (v64 x 1)) ∧ held (.ssetCtx pr lsid arg) 16 (.sset 5 h (v64 x 1)) ∧
       held (.ssetAttr pr lsid arg) 16 (.sset 6 h (v64 x 1)) ∧ held (.ssetTouch pr lsid arg) 8 (.sset 7 h (v64 x 1)) ∧
       asks (.sqry pr lsid t0 arg) (nullIn x 8) 2 (bits h 14 2) (.sqry h) ∧
       ∀ y, sl.b = some y → asks (.snew pr lsid t0 arg) (nullIn x 32 || nullIn y 8) 0 (bits (v64 y 0) 0 2)
         (.snew x.pay (v64 y 0)))

/-! ## Blocks, boundaries and traps -/

/-- R36, R37, R45, R61, R62, R86, R87, R383, R384, R395, R457: which blocks predecode refuses, and with what; which trap is pending;
and at a boundary a strand stops for a pre-empt, or takes the trap that is pending, or fetches the block at BPC: one that may not be
fetched or run traps, any other has its read slots' tokens in its window. That a second returning atomic and an LSID above the first
one's are both refused is log 57. -/
def Obligations.BlockFetchStartsTheBlock : Prop :=
  (∀ (ev : Nat) (user : Bool) (hdr body : List Word32),
    let field (i lo n : Nat) : Nat := (hw hdr i).toNat / 2^lo % 2^n
    let slotBad (x top zero : Nat) : Prop := if x / 2^top % 2 = 1 then x / 2^zero % 2 = 1 else x ≠ 0
    let headBad (i : Nat) : Prop :=
      if i = 0 then field 0 28 4 ≠ 0xB ∨ (ev = 1 ∧ 3 < field 0 25 3) ∨ field 0 0 24 ≠ 0
      else if i = 1 then ev = 1 ∧ field 1 16 16 ≠ 0
      else if i < 10 then slotBad (field i 0 16) 15 8 ∨ slotBad (field i 16 16) 15 8
      else if i < 14 then (12 ≤ i ∧ ev ≠ 3 ∧ hw hdr i ≠ 0) ∨ ∃ j, j < 4 ∧ slotBad (field i (8 * j) 8) 7 0
      else hw hdr i ≠ 0
    let headOk : Prop := 1 ≤ ev ∧ ev ≤ 3 ∧ ∀ i, i < 16 → ¬headBad i
    let modeOk : Prop := user = true → field 0 24 1 = 0
    let is := firstWords body
    let wordOk (x : Nat × Word32) : Prop := (∃ y, decode x.2 (body.getD (x.1 + 1) 0) = some y ∧ y.wf = true) ∧
      (ev = 1 → isX x.2 = false ∧ (hasLsid x.2 = true → lsidOf x.2 < 16) ∧ (isExit x.2 = true → wf x.2 20 3 < 4))
    let valid (k : Nat) : Prop := k < 16 ∧ wsValid (writeSlot hdr k) = true
    let targets := (readSlots hdr).map rsTarget ++ is.flatMap fun x => targetsOf x.2
    let crossOk : Prop :=
      (∀ t ∈ targets, (t.toNat < 64 → t = 0 ∨ 0x20 ≤ t.toNat ∧ t.toNat < 0x30 ∧ valid (t.toNat - 0x20)) ∧
        (64 ≤ t.toNat → ∃ x ∈ is, x.1 = t.toNat % 64 ∧ (t.toNat / 64 = 1 → useA x.2 = true) ∧ (t.toNat / 64 = 2 → useB x.2 = true) ∧
          (t.toNat / 64 = 3 → prOf x.2 ≠ 0))) ∧
      (∀ k, valid k → ∃ t ∈ targets, t.toNat = 0x20 + k) ∧
      (∀ j k, j < k → valid j → valid k →
        ¬(wsClass (writeSlot hdr j) = wsClass (writeSlot hdr k) ∧ wsReg (writeSlot hdr j) = wsReg (writeSlot hdr k))) ∧
      (∀ x ∈ readSlots hdr, rsClass x = 1 → rsReg x < 16) ∧
      (∀ k, valid k → wsClass (writeSlot hdr k) = 1 → wsReg (writeSlot hdr k) < 16) ∧
      (∀ x ∈ is, (prOf x.2 = 1 → noLanes x.2 = false) ∧ (isX x.2 = true → x.1 + 1 ≠ body.length) ∧
        (hasLsid x.2 = true → (hw hdr 1).getLsbD (lsidOf x.2) = isHeld x.2)) ∧
      (∀ x ∈ is, ∀ y ∈ is, x.1 < y.1 → (isExit x.2 = true → isExit y.2 = true → wf x.2 20 3 ≠ wf y.2 20 3) ∧
        (hasLsid x.2 = true → hasLsid y.2 = true → lsidOf x.2 ≠ lsidOf y.2) ∧ ¬(isRetAtomic x.2 = true ∧ isRetAtomic y.2 = true)) ∧
      (∀ l, l < 32 → (hw hdr 1).getLsbD l = true → ∃ x ∈ is, hasLsid x.2 = true ∧ lsidOf x.2 = l) ∧
      ∀ x ∈ is, isRetAtomic x.2 = true → ∀ y ∈ is, hasLsid y.2 = true → lsidOf y.2 ≤ lsidOf x.2
    let gives (r : Option (Nat × Nat)) : Prop := predecode ev user hdr body = r
    (ev = 0 ∨ 3 < ev → gives (some (1, 0x100))) ∧
    (1 ≤ ev → ev ≤ 3 → ∀ i, i < 16 → headBad i → (∀ j, j < i → ¬headBad j) → gives (some (1, 0x100 + i))) ∧
    (headOk → ¬modeOk → gives (some (0x12, 0))) ∧
    (headOk → modeOk → ∀ x ∈ is, ¬wordOk x → (∀ y ∈ is, y.1 < x.1 → wordOk y) → gives (some (2, x.1))) ∧
    (headOk → modeOk → (∀ x ∈ is, wordOk x) → (gives none ↔ crossOk) ∧ ∀ k v, gives (some (k, v)) → k = 1)) ∧
  (∀ (mask : BitVec 8) (d : Strand),
    let takes (r : Option (TrapRec × Strand)) : Prop := nextTrap mask d = r
    let intr (sub : BitVec 8) (tval : Word) : TrapRec := ⟨0x16, sub, tval, d.bpc, 0, d.bpc⟩
    (d.status.getLsbD 1 = false → takes none) ∧
    (d.status.getLsbD 1 = true →
      (∀ r rs, d.commitTraps = r :: rs → takes (some (r, { d with commitTraps := rs }))) ∧
      (d.commitTraps = [] →
        (∀ r, d.report = some r → takes (some ({ r with resume := d.bpc }, { d with report := none }))) ∧
        (d.report = none →
          (∀ x, d.timer = some x → takes (some (intr 1 x, { d with timer := none }))) ∧
          (d.timer = none → (∀ p x, d.ext.Pairwise (fun x y => x.1 < y.1) → (p, x) ∈ d.ext → mask.getLsbD p = false →
              (∀ q ∈ d.ext, mask.getLsbD q.1 = false → q.1 ≤ p) → takes (some (intr 3 x, { d with ext := adel d.ext p }))) ∧
            ((∀ q ∈ d.ext, mask.getLsbD q.1 = true) → takes (d.warn.map fun x => (intr 4 x, { d with warn := none })))))))) ∧
  (∀ (m : AMap Word) (k : Nat) (v : Word), m.Pairwise (fun x y => x.1 < y.1) →
    (aput m k v).Pairwise (fun x y => x.1 < y.1) ∧ (adel m k).Pairwise (fun x y => x.1 < y.1)) ∧
  ∀ (s : State) (c t : Nat),
    let d := s.strand c t
    let fetch (u : State) : Prop := Gives .blockFetch (.blockFetch c t) s u
    let pending := nextTrap (s.core c).priomask d
    (preempted d = true → fetch (stopStrand s c t)) ∧
    (preempted d = false → d.phase ≠ .entering → ∀ r e, pending = some (r, e) → d.block = none →
      Does .blockFetch (.blockFetch c t) s fun u => Trapped s u c t r ∧ SameBytes s u) ∧
    (preempted d = false → pending = none ∨ d.phase = .entering → d.block = none →
      let user := !statusMode d.status
      let faulted (k : Nat) (g : Word) (s1 : State) : State :=
        let r : TrapRec := ⟨.ofNat 8 k, 0, g, d.bpc, 0, d.bpc⟩
        if k % 256 = 7 ∧ user = true then holdStrand s1 c t r else trapEntry s1 c t r
      (∀ k g s1, fetchBlock s c user d.bpc = (.error (k, g), s1) → fetch (faulted k g s1)) ∧
      (∀ hdr body s1, fetchBlock s c user d.bpc = (.ok (hdr, body), s1) →
        (∀ k v, predecode (evOf d) user hdr body = some (k, v) → fetch (faulted k (.ofNat 64 v) s1)) ∧
        (predecode (evOf d) user hdr body = none →
          let b0 := { newBlock d.bpc hdr body with starting := none }
          ((readSlots hdr).all fun x => targetFree b0 (rsTarget x)) = true →
          (readSlots hdr).Pairwise (fun x y => rsTarget x ≠ rsTarget y ∨ rsTarget x = 0) →
          ((firstWords body).all fun w => !firesAtStart w.2) = true →
          fetch (s1.onStrand c t fun d => { d with
            phase := .running
            block := some ((readSlots hdr).foldl (fun b x => putAt s1.cycle (readToken d x) b (rsTarget x)) b0) }))))

/-- R42, R56, R111, R339, R390: the commit of a block that has no SYSWR and no form of major 0x7D merges its write slots, moves
BPC as its exit says, and changes no byte of memory. -/
def Obligations.CommitMergesAndExits : Prop :=
  ∀ (s : State) (c t : Nat) (b : Block) (x : Exit),
    let d := s.strand c t
    d.block = some b → b.late = none → b.exit = some x → b.sysw = [] → b.forms = [] → preempted d = false →
    d.status.getLsbD 2 = false → (x.kind = .tret → (d.live = true ∨ d.hnd = true) ∧ d.preempt = none) → (x.kind = .hret → d.rbpc.isSome = true) →
    Does .blockCommit (.blockCommit c t) s fun u =>
      let e := u.strand c t
      SameBytes s u ∧ e.block = none ∧ e.blocks = d.blocks + 1 ∧ Committed d e b ∧ e.nflag = (if b.nf then d.nflag ||| 1 else d.nflag) ∧
      e.fpmode = d.fpmode ∧ (x.kind ≠ .hret → e.hnd = d.hnd ∧ e.rbpc = d.rbpc) ∧
      match x.kind with
      | .br | .bri => e.bpc = x.target ∧ e.status = d.status ∧ e.phase = .boundary
      | .yield => e.bpc = x.target ∧ e.status = d.status ∧ e.phase = .boundary ∧ e.yielding.map (·.1) = some (s.cycle + 16)
      | .halt => b.held = [] → d.ackTiles = 0 → d.report = none → e.phase = .idle ∧ e.live = false ∧ e.status = d.status
      | .scall n => e.tcause = 0x13 ∧ e.tval = n.zeroExtend 64 ∧ e.tblk = x.target ∧ e.resume = x.target ∧
          e.bpc = (s.core c).trapvec ∧ e.status = statusTrap d.status ∧ e.phase = .boundary
      | .tret => e.bpc = d.resume ∧ e.status = statusRet d.status ∧ e.phase = .boundary
      | .hret => e.hnd = false ∧ d.rbpc = some e.bpc ∧ e.rbpc = none ∧ e.phase = .boundary

/-- R49, R50, R51, R56, R103, R223, R291: the hold partition is kept in LSID order; a commit puts the block's held effects and the
confirmations of its Larder reservations behind those of the core's store buffer in LSID order, drops the L1 lines that its INVs name,
advances the channels it popped, and applies the SYSWRs. -/
def Obligations.CommitReleasesHeldEffects : Prop :=
  (∀ (h : Held) (l : List Held), l.Pairwise (fun x y => x.lsid ≤ y.lsid) →
    (insertHeld h l).Pairwise (fun x y => x.lsid ≤ y.lsid) ∧ (insertHeld h l).Perm (h :: l)) ∧
  ∀ (s : State) (c t : Nat) (b : Block) (x : Exit),
    let d := s.strand c t
    let leaves (h : Nat × Eff) : Bool := match h.2 with | .inv .. | .fence 0 _ => false | _ => true
    d.block = some b → b.late = none → b.exit = some x → b.held.Pairwise (fun x y => x.lsid ≤ y.lsid) →
    Does .blockCommit (.blockCommit c t) s fun u =>
      (∃ (hs : List (Nat × Eff)) (ents : List SbEnt), hs.Pairwise (fun x y => x.1 ≤ y.1) ∧
        hs.Perm ((b.held.map fun h => (h.lsid, h.eff)) ++ b.snews.map fun q => (q.1, .larder (.confirm q.2.1 q.2.2))) ∧
        (u.core c).sb = (s.core c).sb ++ ents ∧ ents.map (fun e => (e.src.lsid, e.eff)) = hs.filter leaves ∧
        (ents.all fun e => e.strand == t && e.blk == b.addr && !e.left) = true) ∧
      (∀ h ∈ b.held, ∀ g len, h.eff = .inv g len → ∀ y ∈ (u.core c).l1,
        ¬(y.asid = h.asid ∧ (len = BitVec.allOnes 64 ∨ len ≠ 0 ∧
          (s.norm g).toNat < 128 * y.line + 128 ∧ 128 * y.line < (s.norm g).toNat + len.toNat))) ∧
      ((b.claims.all fun q => b.claims.all fun r => q.1 != r.1 || q == r) = true → b.claims.Nodup →
        (∀ dir n, (dir, n) ∈ b.claims → (u.core c).chan dir =
          { (s.core c).chan dir with
            ents := ((s.core c).chan dir).ents.drop n, head := ((s.core c).chan dir).head + .ofNat 3 n, claim := none }) ∧
        ∀ dir, (b.claims.any fun q => q.1 == dir) = false → (u.core c).chan dir = (s.core c).chan dir) ∧
      (b.sysw = [] → ∀ i, 0x100 ≤ i → i < 0x129 → i ≠ 0x126 → coreReg (u.core c) i = coreReg (s.core c) i) ∧
      ∀ j reg sel tk, b.sysw = [(j, reg, sel, tk)] → 0x100 ≤ reg.toNat → reg.toNat < 0x129 → tk.nul.extractLsb' 0 8 = 0 →
        assignedReg reg.toNat = true → reg ≠ 0x126 → coreReg (u.core c) reg.toNat = v64 tk 0 &&& coreMask c reg.toNat

/-- R54, R111, R378, R385, R391: the watchdog traps the block without effect, or, irrevocable, with its registers and exit
dropped; the end of a YIELD's stand-out, of an ALIGN, of a WFI and of a hold free the strand. -/
def Obligations.BoundsEndTheirWaits : Prop :=
  ∀ (s : State) (c t : Nat),
    let d := s.strand c t
    Gives .yieldStandoutEnd (.yieldStandoutEnd c t) s (s.onStrand c t fun d => { d with yielding := none }) ∧
    Gives .alignRelease (.alignRelease c t) s (s.onStrand c t fun d => { d with aligned := none }) ∧
    (∀ w us, d.phase = .wfi w us → Gives .wfiTimeout (.wfiTimeout c t) s
      (s.onStrand c t fun d => { d with timer := some (us.zeroExtend 64), phase := .boundary })) ∧
    (∀ n, d.phase = .held n → Gives .heldTimeout (.heldTimeout c t) s
      (s.onStrand c t fun d => { d with bpc := d.resume, phase := .boundary })) ∧
    ∀ b, d.block = some b → b.starting = none → preempted d = false →
      Does .watchdogExpiry (.watchdogExpiry c t) s fun u => SameBytes s u ∧
        Trapped s u c t (if b.irrev then ⟨6, 0x80, 0x8000000000000000, b.addr, 0, b.addr⟩ else ⟨6, 0, 0, b.addr, 0, b.addr⟩)

/-- R15, R55, R381, R385: a fault of a block that may still be flushed leaves registers, memory, store buffer and BPC's block as
before it and enters the trap handler; a page fault in user mode holds the strand. -/
def Obligations.FaultsArePrecise : Prop :=
  ∀ (s : State) (c t cause : Nat) (tval : Word) (lsid : Option Nat) (b : Block),
    let d := s.strand c t
    d.block = some b → b.starting = none → b.irrev = false → b.early = [] → preempted d = false →
    let u := raise s c t cause tval lsid
    let e := u.strand c t
    SameBytes s u ∧ (u.core c).sb = (s.core c).sb ∧ e.block = none ∧ e.g = d.g ∧ e.v = d.v ∧ e.blocks = d.blocks ∧
    e.epoch = d.epoch + 1 ∧ e.tval = tval ∧ e.tblk = b.addr ∧ e.resume = b.addr ∧
    e.tlsid = (match lsid with | some l => .ofNat 64 (l % 32 + 32) | none => 0) ∧
    (if cause % 256 = 7 ∧ statusMode d.status = false then
      e.phase = .held s.cycle ∧ e.status = d.status ∧ e.bpc = d.bpc ∧ e.tcause = 7 ∧
        (u.due.any fun p => match p with | .trapMessageAtCollector m => m.kind == 1 && m.tval == tval | _ => false) = true
    else Trapped s u c t ⟨.ofNat 8 cause, 0, tval, b.addr, (match lsid with | some l => .ofNat 6 (l % 32 + 32) | none => 0), b.addr⟩)

/-- R381, R390: what a trap entry records and changes, and what a return from it restores. -/
def Obligations.TrapEntryAndReturn : Prop :=
  ∀ (s : State) (c t : Nat) (r : TrapRec),
    (let e := (trapEntry s c t r).strand c t
     let d := s.strand c t
     e.tcause = r.cause.zeroExtend 64 ||| (r.sub.zeroExtend 64 <<< 8) ∧ e.tval = r.tval ∧ e.tblk = r.tblk ∧
     e.tlsid = r.tlsid.zeroExtend 64 ∧ e.ttime = s.timebase &&& 0xFFFFFFFFFF ∧
     e.status.getLsbD 8 = d.status.getLsbD 0 ∧ e.status.getLsbD 9 = d.status.getLsbD 1 ∧ e.status.getLsbD 0 = true ∧
     e.status.getLsbD 1 = false ∧ (∀ j, 2 ≤ j → j ≠ 8 → j ≠ 9 → e.status.getLsbD j = d.status.getLsbD j) ∧
     e.resume = r.resume ∧ e.bpc = (s.core c).trapvec ∧ e.phase = .boundary) ∧
    (∀ v, ((writeStrandReg s c t 3 v).strand c t).resume = v &&& ~~~63) ∧
    let e := (trapReturn s c t).strand c t
    let d := s.strand c t
    e.status.getLsbD 0 = d.status.getLsbD 8 ∧ e.status.getLsbD 1 = d.status.getLsbD 9 ∧
    (∀ j, 2 ≤ j → e.status.getLsbD j = d.status.getLsbD j) ∧ e.bpc = d.resume

/-! ## Memory -/

/-- R186, R188, R204, R218, R221: an access is performed whole at its home. A store changes the bytes it names and no other byte of
any memory; an atomic writes the new value and answers the old; a read changes nothing and answers the bytes, or an error. Where
the bytes lie in the tile pool they are those of the version that is placed there. R187, R215: an LD.last whose data was read has
arrived, and holds the discard of a DISCARDABLE page's line. A line of host memory in error answers as one of the device does
(log entry 77). -/
def Obligations.HomesPerformAccesses : Prop :=
  ∀ (s : State) (m : MemReq) (pa : Nat) (leaf : Leaf),
    let at_ := fwd s pa
    let home (Q : State → Prop) : Prop := Does .homeAccess (.homeAccess m pa leaf) s Q
    let line := agentLine s pa
    let back (u : State) (src : Src) (x : Ret) : Prop := .resultReturn (some (if leaf.host then 256 else sliceOf pa)) src x ∈ u.due
    let device := leaf.host = false ∧ poolVer s at_ = none
    let hostNow (d : List (Option Byte)) (u : State) : Prop := SameBytes s u ∧
      (∀ j, j < 64 → (agentLine u pa).d[j]? = match if pa % 64 ≤ j then d[j - pa % 64]? else none with
        | some (some x) => some x
        | _ => line.d[j]?) ∧
      ∀ l, l ≠ pa / 64 → aget u.agent l ⟨1, []⟩ = aget s.agent l ⟨1, []⟩
    (m.orig = .prefetch → home fun u => SameBytes s u) ∧
    (wanted s m.orig = true →
    (∀ d, m.op = .write d →
      (device → home fun u => WroteDevice s u at_ d) ∧
      (∀ k e base, leaf.host = false → poolVer s at_ = some (k, e, base) → home fun u => SameBytes s u ∧
        (u.slice k).vers = (s.slice k).vers.map fun x => if x = e then { x with bytes := memPutAll x.bytes (at_ - base) d } else x) ∧
      (leaf.host = true → line.d.length = 64 → home (hostNow d))) ∧
    (∀ off z fill, m.op = .read off z fill → leaf.host = false →
      (poisoned s pa = false → ∀ src, m.orig = .load src → home fun u => SameBytes s u ∧
        back u src (.bytes off (match poolVer s at_ with
          | none => memBytes s.mem at_ z
          | some (_, e, base) => memBytes e.bytes (at_ - base) z))) ∧
      (poisoned s pa = true → z ≠ 0 → ∀ src, m.orig = .load src → home fun u => SameBytes s u ∧ back u src (.cause 0x17 m.g))) ∧
    (∀ off z fill, m.op = .read off z fill → leaf.host = true → ∀ src, m.orig = .load src →
      (hostBad s pa = false → home fun u => SameBytes s u ∧ agentLine u pa = line ∧
        back u src (.bytes off ((line.d.drop (pa % 64)).take z))) ∧
      (hostBad s pa = true → z ≠ 0 → home fun u => SameBytes s u ∧ back u src (.cause 0x17 m.g))) ∧
    (∀ fn wide b, m.op = .amo fn wide b → fn.toNat < 10 ∨ (fn = 10 ∧ wide = false) →
      let w := if wide then 64 else 32
      let value (old : BitVec w) : BitVec w :=
        if fn = 10 then .ofNat w (rndCode f32 0 (exAdd false (decodeF f32 old.toNat) (decodeF f32 (b.toNat % 2^32))))
        else atomicNew fn old (b.truncate w) (b.extractLsb' w w)
      let writes (old : BitVec w) : List (Option Byte) := (leBytes (value old).toNat (w / 8)).map some
      let answers (old : BitVec w) (u : State) : Prop := ∀ c seq src, m.orig = .sb c seq (some src) →
        back u src (.tok (if wide then dTok old.toNat else mkTok 1 [some old.toNat]))
      (device → poisoned s pa = false → home fun u =>
        let old : BitVec w := numAt w s.mem at_
        WroteDevice s u at_ (writes old) ∧ answers old u) ∧
      (leaf.host = false → poisoned s pa = true → home fun u => SameBytes s u) ∧
      (leaf.host = true → hostBad s pa = false → line.d.length = 64 → pa % 64 + w / 8 ≤ 64 → home fun u =>
        let old : BitVec w := .ofNat w (leNat ((line.d.drop (pa % 64)).take (w / 8)))
        hostNow (writes old) u ∧ answers old u)) ∧
    (∀ fn b, m.op = .vamo fn b → device → poisoned s pa = false → home fun u =>
      (∀ a, a < at_ ∨ at_ + 64 ≤ a → memRead u.mem a = memRead s.mem a) ∧
      (fn.toNat < 2 → ∀ j, j < 64 → let o := memRead s.mem (at_ + j)
        let x := b.pay.extractLsb' (8 * j) 8
        memRead u.mem (at_ + j) = if b.nul.getLsbD j then o else if fn = 0 then o ||| x else o &&& x) ∧
      (fn = 2 → ∀ i, i < 16 → numAt 32 u.mem (at_ + 4 * i) = match laneOpt 32 b i with
        | some x => numAt 32 s.mem (at_ + 4 * i) + x
        | none => numAt 32 s.mem (at_ + 4 * i))) ∧
    (∀ len, m.op = .clean len → home fun u => SameBytes s u) ∧
    ∀ off z fill src b sl, m.op = .read off z fill → m.orig = .load src → poisoned s pa = false → hostBad s pa = false →
      blockOf s src = some b → b.slots[src.idx]? = some sl → majorOf sl.word = 0x60 → wf sl.word 12 3 = 3 →
      home fun u => ∃ b', blockOf u src = some b' ∧ b'.arrived = b.arrived ||| .ofNat 32 (2^(src.lsid % 32)) ∧
        b'.held = if leaf.disc then
            insertHeld (s.entry src.core src.strand src.lsid src.idx (.discard m.g) 0 [(0, pa, leaf)]) b.held
          else b.held)

/-- R43, R181, R208, R269: what comes back reaches its block: a token its target, the last bytes of a load its token, a cause a
fault; a page walk sends the access on with the leaf that the tables hold, or fails it; a line enters the L1. R50, R185, R199,
R252, R333: an entry of the store buffer leaves: a Loft store is performed, a global one goes to its home, a push writes its entry
of the neighbour's channel, requests, messages and commands go on their way; a draining way keeps what versions hold. -/
def Obligations.AnswersAndStoreBuffer : Prop :=
  ((∀ (s : State) (src : Src) (b : Block) (sl : Slot), blockOf s src = some b → b.slots[src.idx]? = some sl →
     let back (r : Ret) (u : State) : Prop := ∀ home, Gives .resultReturn (.resultReturn home src r) s u
     let t0 : BitVec 8 := sl.word.extractLsb' 0 8
     let ended (tk : Token) : State := s.onBlock src.core src.strand fun b =>
       putAt (s.cycle + s.lat) tk { b with
         outst := b.outst.filter fun o => o.idx != src.idx
         waits := b.waits.filter fun i => i != src.idx
         early := b.early.map fun e => if e.idx == src.idx then { e with val := some tk } else e } t0
     let failed (x : Nat × Word) : State := raise (notEarly s src) src.core src.strand x.1 x.2 (some src.lsid)
     let mine := b.outst.find? fun o => o.idx == src.idx
     (∀ cause tval, (mine = none → back (.cause cause tval) (failed (cause, tval))) ∧
       ∀ o, mine = some o →
         (o.left ≤ 1 → back (.cause cause tval) (failed (lowest o.bad cause tval))) ∧
         (1 < o.left → back (.cause cause tval) (s.onBlock src.core src.strand fun b => { b with
           outst := b.outst.map fun o =>
             if o.idx == src.idx then { o with left := o.left - 1, bad := some (lowest o.bad cause tval) } else o }))) ∧
     (majorOf sl.word ≠ 0x70 → majorOf sl.word ≠ 0x71 → targetFree b t0 = true →
       (∀ e ∈ b.early, e.on = none ∧ (e.idx = src.idx → e.val = none)) → b.doubt = none →
       (∀ tk, back (.tok tk) (ended (gateTok (prOf sl.word) (retShape sl.word) (sl.p.getD noTok) tk))) ∧
       ∀ off d o, mine = some o →
         (o.left ≤ 1 → back (.bytes off d) (match o.bad with
           | some x => failed x
           | none => ended (gateTok (prOf sl.word) (retShape sl.word) (sl.p.getD noTok)
               (loadTok o.z 0 noTok ((takeBytes o.got off d).map fun x => x.getD 0))))) ∧
         (1 < o.left → back (.bytes off d) (s.onBlock src.core src.strand fun b => { b with
           outst := b.outst.map fun o =>
             if o.idx == src.idx then { o with got := takeBytes o.got off d, left := o.left - 1 } else o })))) ∧
   (∀ (s : State) (m : MemReq),
     let found := walk s (dieOf m.g) m.asid (vaOf m.g)
     let reads := walked s (dieOf m.g) m.asid (vaOf m.g)
     let goes (leaf : Leaf) (n : MemReq) : Prop := leafBad n.g leaf n.user (opWrites n.op) false n.core = false ∧
       (match n.op with | .probe _ _ => false | _ => true) = true
     (∀ leaf, found = .ok leaf → goes leaf m →
       Does .pageWalk (.pageWalk m) s fun u =>
         SameBytes s u ∧ .homeAccess m (accessPa s m.g m.asid leaf) leaf ∈ u.due ∧ tlbFind u m.g m.asid = some leaf ∧
         ∀ n, .pageWalk n ∈ s.due → samePage (some leaf) m n = true →
           .pageWalk n ∉ u.due ∧ (goes leaf n → .homeAccess n (accessPa s n.g n.asid leaf) leaf ∈ u.due)) ∧
     ∀ src o b, m.orig = .load src → blockOf s src = some b → (b.outst.find? fun o => o.idx == src.idx) = some o → o.left ≤ 1 →
       let failed (t : State) (cause : Nat) : State :=
         let x := lowest o.bad cause m.g
         raise (notEarly t src) src.core src.strand x.1 x.2 (some src.lsid)
       (∀ leaf, found = .ok leaf → leafBad m.g leaf m.user (opWrites m.op) false m.core = true →
         sharers s (some leaf) m = [] →
         Gives .pageWalk (.pageWalk m) s (failed (tlbInsert reads m.g m.asid leaf) 8)) ∧
       ∀ k, found = .error k → sharers s none m = [] → Gives .pageWalk (.pageWalk m) s (failed reads k)) ∧
   ∀ (s : State) (c line : Nat) (asid : BitVec 16) (d : List Byte) (leaf : Leaf),
     Does .l1Fill (.l1Fill c asid line d leaf) s fun u =>
       SameBytes s u ∧ l1Find (u.core c) asid line = some ⟨asid, line, d, leaf⟩ ∧
       (∀ x ∈ (u.core c).l1, x = ⟨asid, line, d, leaf⟩ ∨ x ∈ (s.core c).l1) ∧
       ((s.core c).l1.length ≤ 128 → (u.core c).l1.length ≤ 128)) ∧
  ((∀ (s : State) (c seq : Nat) (e : SbEnt), ((s.core c).sb.find? fun x => x.seq == seq) = some e →
     let drain (Q : State → Prop) : Prop := Does .storeBufferDrain (.storeBufferDrain c seq) s Q
     let gone (u : State) : Prop := (u.core c).sb = (s.core c).sb.filter fun x => x.seq != seq
     let left (u : State) : Prop :=
       (u.core c).sb = (s.core c).sb.map fun x => if x.seq == seq then { x with left := true } else x
     (∀ g rel d, e.eff = .store g true rel d → drain fun u => WroteLoft s u c g.toNat d ∧ gone u ∧ u.due = s.due) ∧
     (∀ g rel d pa leaf, e.eff = .store g false rel d → e.tr = [(0, pa, leaf)] → drain fun u => SameBytes s u ∧ left u ∧
       u.due = s.due ++ [.homeAccess ⟨.sb c seq e.ret, g, e.asid, e.user, some c, .write d⟩ pa leaf]) ∧
     (∀ p, e.eff = .tile p → drain fun u => SameBytes s u ∧ left u ∧
       u.due = s.due ++ [tileAt (fun r => { r with blk := e.blk, seq := seq, launch := e.launch }) p]) ∧
     (∀ dir t n, e.eff = .push dir t → neighbour c dir = some n → drain fun u =>
       let h := (s.core n).chan (opposite dir)
       SameBytes s u ∧ gone u ∧ u.due = s.due ∧
       (u.core n).chan (opposite dir) = { h with ents := h.ents ++ [(s.cycle, t)], resv := h.resv - 1, tail := h.tail + 1 }) ∧
     (∀ dest cls pay, e.eff = .send dest cls pay → drain fun u => SameBytes s u ∧ gone u ∧
       u.due = s.due ++ [.messageArrival ⟨dest, cls, pay, c, e.strand, e.time, e.asid, false⟩]) ∧
     (∀ q, e.eff = .larder q → drain fun u => SameBytes s u ∧ left u ∧
       u.due = s.due ++ [.larderRequest (larderDie q) q e.src e.asid e.blk e.launch (some seq)]) ∧
     (∀ w0 w1 a b, e.eff = .cmd w0 w1 a b → drain fun u => SameBytes s u ∧ gone u ∧
       (majorOf w0 = 0x74 → ∃ x, (u.core c).mat.queue = (s.core c).mat.queue ++ [x] ∧ x.w0 = w0 ∧ x.w1 = w1 ∧ x.a = a ∧
         x.src = e.src ∧ x.run = false) ∧
       (majorOf w0 = 0x76 → u.due = s.due ++ [if wf w0 13 5 = 4 then .xcanAtEngine c e.asid (w0.getLsbD 8) (v64 a 0)
         else .engineCommandArrival (engineOf c) (newCmd e s.nextId w0 w1 a b)])) ∧
     ∀ k sc, e.eff = .fence k sc → drain fun u => SameBytes s u ∧ gone u ∧ u.due = s.due) ∧
   ∀ (s : State) (k w : Nat), NoPool s → ((s.slice k).vers.map Ver.ref).Nodup → Does .wayDrain (.wayDrain k w) s fun u => SameBytes s u ∧
     (∀ r e, findVer s r = some e → ∃ e', findVer u r = some e' ∧ e'.bytes = e.bytes ∧ e'.state = e.state ∧ e'.size = e.size ∧
       e'.pend = e.pend ∧ e'.refs = e.refs) ∧
     ((s.slice k).flush.getLsbD w = true → (s.slice k).tile.getLsbD w = false → w < 16 → (u.slice k).maybe.getLsbD w = false))

/-! ## Tiles at their homes -/

/-- R231, R232, R237, R238, R253-R257, R264: what a held tile request does at its home, and its acknowledgement, with the cause
where the rules name one. -/
def Obligations.TileRequestsAtHomes : Prop :=
  ∀ (s : State) (r : TReq),
    let acked (cause : Option Nat) (t : State) : State := t.emit (.tileAck r cause)
    let key := r.ref
    -- TST
    (∀ off d, let run (t : State) : Prop := Gives .tstAtHome (.tstAtHome r off d) s t
      (findVer s key = none → run (acked (some 0xA) s)) ∧
      ∀ e, findVer s key = some e → e.proxy = false →
        (e.state = .poisoned → run (acked none s)) ∧
        (e.state ≠ .filling → e.state ≠ .poisoned → run (acked (some 0xB) s)) ∧
        (e.state = .filling → e.size < off + d.length → run (acked (some 0xB) s)) ∧
        (e.state = .filling → e.closed = true → run (acked (some 0xB) s)) ∧
        (e.state = .filling → e.closed = false → off + d.length ≤ e.size → e.pend < fillCount d → run (acked (some 0xC) s)) ∧
        (e.state = .filling → e.closed = false → off + d.length ≤ e.size → fillCount d ≤ e.pend →
          run (acked none (settleRef (onVer s key fun e =>
            { e with bytes := memPutAll e.bytes off d, pend := e.pend - fillCount d }) key))) ∧
        -- of a tile with this one version
        (tileHas s key [e] → e.state = .filling → e.closed = false → off + d.length ≤ e.size →
          (fillCount d < e.pend → Does .tstAtHome (.tstAtHome r off d) s fun u =>
            FillingAs u key e.size (e.pend - fillCount d) e.fmt (writtenAt e.bytes off d)) ∧
          (e.pend = fillCount d → e.guard = none → e.refs ≠ 0 → Does .tstAtHome (.tstAtHome r off d) s fun u =>
            ∃ e', findVer u key = some e' ∧ e'.state = .sealed_ ∧ e'.size = e.size ∧ e'.waiters = [] ∧
              ∀ a, memRead e'.bytes a = writtenAt e.bytes off d a) ∧
          (e.pend = fillCount d → e.guard = none → e.refs = 0 → e.xref = 0 → e.waiters = [] →
            Does .tstAtHome (.tstAtHome r off d) s fun u => findVer u key = none))) ∧
    -- TNEW, and the creation of a proxy
    (∀ d, let run (Q : State → Prop) : Prop := Does .tnewAtHome (.tnewAtHome r d) s Q
      (d.proxy = none → d.fork = none →
        (key.ver.toNat ≤ hwmOf s key.asid key.tn → run fun u => u = acked (some 0xB) s) ∧
        (hwmOf s key.asid key.tn < key.ver.toNat → tileHas s key [] → d.pend ≠ 0 → entriesUsed (s.slice (homeRef key)) + 2 ≤ 8192 →
          (place s (homeRef key) d.size d.hbm).1.isSome = true → run fun u => .tileAck r none ∈ u.due ∧
            FillingAs u key d.size d.pend d.fmt (fun _ => 0) ∧ hwmOf u key.asid key.tn = key.ver.toNat)) ∧
      ∀ node, d.proxy = some node →
        (node = s.sysnum.toNat → run fun u => u = acked (some 0xB) s) ∧
        (node ≠ s.sysnum.toNat → hwmOf s key.asid key.tn < key.ver.toNat → tileHas s key [] → entriesUsed (s.slice (homeRef key)) + 2 ≤ 8192 →
          run fun u => .tileAck r none ∈ u.due ∧ (.sub node key d.refs ∈ u.sent ∨ .sub node key d.refs ∈ u.heldFlits) ∧
            ∃ e', findVer u key = some e' ∧ e'.proxy = true ∧ e'.state = .filling ∧ e'.node = node)) ∧
    -- TSEAL
    (∀ fin arr size e, findVer s key = some e → e.state = .filling → e.proxy = false →
      let n := if arr then e.size - e.pend else size
      (fin = false → n ≤ e.size → Gives .tsealAtHome (.tsealAtHome r fin arr size) s
        (acked none (settleRef (onVer s key fun e => { e with
          closed := true, size := n, pend := 0, bytes := memClear e.bytes n (2^28) }) key))) ∧
      (fin = true → n ≤ e.size → e.size - e.pend ≤ n → Gives .tsealAtHome (.tsealAtHome r fin arr size) s
        (acked none (settleRef (onVer s key fun x => { x with fin := true, pend := n - (e.size - e.pend), size := n }) key)))) ∧
    -- THOLD and decrements
    (∀ e, findVer s key = some e → (findTile s key.asid key.tn).isSome = true →
      Gives .tholdAtHome (.tholdAtHome r) s (if e.refs = 0xFFF then acked none s
        else if e.refs = 0xFFE then acked (some 0xE) s
        else acked none (onVer s key fun e => { e with refs := e.refs + 1 })) ∧
      Gives .decrementAtHome (.decrementAtHome r) s (if e.refs = 0xFFF then acked none s
        else if e.refs = 0 then acked (some 0xE) s
        else acked none (settleRef (onVer s key fun e => { e with refs := e.refs - 1 }) key))) ∧
    -- TFORK and the end of its copy
    (∀ source n size refs e, sealedHere s source e →
      Gives .tforkAtHome (.tforkAtHome r source n size refs) s (if e.size < n ∨ 255 ≤ e.xref then acked (some 0xB) s
        else (onVer s source fun e => { e with xref := e.xref + 1 }).emit (.tnewAtHome r
          ⟨size, size, refs, e.fmt, false, false, none, some (source, n)⟩)) ∧
      ∀ f, findVer s key = some f → f.state = .filling → f.proxy = false → f.closed = false → n ≤ f.size → n ≤ f.pend →
        Gives .tforkCopyEnd (.tforkCopyEnd r source n) s (settleRef (dropXref (settleRef (onVer s key fun f =>
          { f with bytes := memPutAll f.bytes 0 ((memBytes e.bytes 0 n).map some), pend := f.pend - n }) key) source) source)) ∧
    -- TALIAS
    (∀ owner refs e, findVer s ⟨key.asid, key.tn, owner⟩ = some e → tileHas s key [e] → e.state = .sealed_ → e.xref < 255 → refs ≠ 0 →
      hwmOf s key.asid key.tn < key.ver.toNat → entriesUsed (s.slice (homeRef key)) + 2 ≤ 8192 → owner ≠ key.ver →
      Does .taliasAtHome (.taliasAtHome r owner refs) s fun u => .tileAck r none ∈ u.due ∧
        ∃ e' o, findVer u key = some e' ∧ e'.state = .aliased ∧ e'.aver = owner ∧ e'.size = e.size ∧ e'.fmt = e.fmt ∧
          findVer u ⟨key.asid, key.tn, owner⟩ = some o ∧ o.bytes = e.bytes ∧ o.state = .sealed_) ∧
    -- TGUARD and its result
    (∀ guard e, findVer s key = some e → e.state = .filling → e.proxy = false → e.guard = none → findVer s guard = none →
      guardsUsed (s.slice (homeRef key)) < 256 →
      (predecessor s e = none → Gives .tguardAtHome (.tguardAtHome r guard) s
        ((acked none (onVer s key fun e => { e with guard := some ⟨guard, none, none⟩ })).emit
          (.watchRetry guard (.guard key) s.cycle 64))) ∧
      ∀ p, predecessor s e = some p → p.xref < 255 → Gives .tguardAtHome (.tguardAtHome r guard) s
        ((acked none (onVer (onVer s p.ref fun p => { p with xref := p.xref + 1 }) key fun e =>
          { e with guard := some ⟨guard, some p.ver, none⟩ })).emit (.watchRetry guard (.guard key) s.cycle 64))) ∧
    (∀ set e g, findVer s key = some e → e.guard = some g → g.status = none →
      Gives .guardResult (.guardResult key set) s (settleRef (onVer s key fun e => { e with
        guard := e.guard.map fun g => if g.status.isNone then { g with status := some set } else g }) key)) ∧
    -- TPIN and TMOVE
    (∀ on e, findVer s key = some e → e.proxy = false →
      Does .tpinAtHome (.tpinAtHome r on) s (fun u => .tileAck r none ∈ u.due ∧
        ∃ e', findVer u key = some e' ∧ e'.pinned = on ∧ e'.bytes = e.bytes ∧ e'.state = e.state) ∧
      Does .tmoveAtHome (.tmoveAtHome r on) s (fun u => .tileAck r none ∈ u.due ∧
        ∃ e', findVer u key = some e' ∧ e'.pinned = e.pinned ∧ e'.bytes = e.bytes ∧ e'.state = e.state ∧
          (on = true → e.pinned = true → e'.hbm = true → e.hbm = true))) ∧
    -- the acknowledgement
    ∀ cause, let c := r.src.core
      let t := r.src.strand
      let d := s.strand c t
      d.halting = false → Does .tileAck (.tileAck r cause) s fun u =>
        (u.strand c t).ackTiles = d.ackTiles - 1 ∧ SameBytes s u ∧
        (∀ k, cause = some k → d.report = none → r.launch = none →
          (u.strand c t).report = some (reportRec k (refBits key) r.blk r.src.lsid)) ∧
        (cause = none → (u.strand c t).report = d.report)

/-- R230, R239-R243, R259, R260: reads and watches of a version are answered when it is final, wait when it is not, and end as the
rules say; a read of a version that SYSTEM sees is known to acquire (R201, R204); a subscription holds a reference; a torn-down ASID
has no version left. -/
def Obligations.TileReadsAtHomes : Prop :=
  (∀ (s : State) (r : TReq) (off z : Nat) (e : Ver), sealedHere s r.ref e →
    let back (ret : Ret) : State := s.emit (.resultReturn (some (homeRef r.ref)) r.src ret)
    let told : Ret := if e.size < off + z then .cause 0xB (refBits r.ref) else .tok (readTok z (memBytes e.bytes off z))
    (e.system = true → s.current r.src = true → e.size ≥ off + z → Does .tldAtHome (.tldAtHome r off z) s fun u =>
      .resultReturn (some (homeRef r.ref)) r.src told ∈ u.due ∧ ∃ b, blockOf u r.src = some b ∧
        ∀ o ∈ b.outst, o.idx = r.src.idx → o.sync = true) ∧
    (e.system = false ∨ s.current r.src = false →
    Gives .tldAtHome (.tldAtHome r off z) s (back told) ∧
    Gives .twaitAtHome (.twaitAtHome r) s (back (.tok (dTok (e.size % 2^28 + 2^28 * e.fmt.toNat + 2^32 * 2 +
      (if e.gskip then 2^35 else 0) + (if e.fin then 2^36 else 0))))) ∧
    (s.current r.src = true → ∀ time delay,
      Gives .readRetry (.readRetry r.ref (.read r.src off z) time delay) s (back told))) ∧
    ∀ k id time delay,
      Gives .watchRetry (.watchRetry r.ref (.engine k id) time delay) s (s.emit (.engineSourceAnswer k id .readable))) ∧
  (∀ (s : State) (r : TReq) (off z : Nat), (findTile s r.ref.asid r.ref.tn).isSome = true →
    r.ref.ver.toNat ≤ hwmOf s r.ref.asid r.ref.tn → findVer s r.ref = none →
    Gives .tldAtHome (.tldAtHome r off z) s (s.emit (.resultReturn (some (homeRef r.ref)) r.src (.cause 0xA (refBits r.ref)))) ∧
    Gives .twaitAtHome (.twaitAtHome r) s (s.emit (.resultReturn (some (homeRef r.ref)) r.src (.cause 0xA (refBits r.ref))))) ∧
  (∀ (s : State) (r : TReq) (off z : Nat) (e : Ver), findVer s r.ref = some e → e.state = .filling →
    (findTile s r.ref.asid r.ref.tn).isSome = true → r.ref.ver.toNat ≤ hwmOf s r.ref.asid r.ref.tn →
    waitersUsed (s.slice (homeRef r.ref)) < 4096 →
    Does .tldAtHome (.tldAtHome r off z) s (fun u => u.due = s.due ∧
      ∃ e', findVer u r.ref = some e' ∧ e'.waiters = e.waiters ++ [⟨r.ref.ver, .read r.src off z⟩] ∧
        (s.current r.src = true → ∃ b, (u.strand r.src.core r.src.strand).block = some b ∧ r.src.idx ∈ b.waits)) ∧
    (∀ node refs, Does .tsubAtHome (.tsubAtHome r.ref node refs) s fun u => u.due = s.due ∧
      ∃ e', findVer u r.ref = some e' ∧ e'.waiters = e.waiters ++ [⟨r.ref.ver, .sub node refs⟩] ∧ e'.subscribed = true ∧
        e'.refs = (if e.refs = 0xFFF then 0xFFF else min 0xFFE (e.refs + 1))) ∧
    ∀ src, Does .waiterCancel (.waiterCancel r.ref src) s fun u => ∀ e', findVer u r.ref = some e' →
      ∀ w ∈ e'.waiters, (∀ o n, w.who ≠ .read src o n) ∧ w.who ≠ .status src) ∧
  (∀ (s : State) (r : TReq) (e : Ver), findVer s r.ref = some e → e.pend < 2^28 → e.size < 2^28 → e.refs < 2^12 →
    Does .tqryAtHome (.tqryAtHome r false) s fun u => ∃ tk, u.due = s.due ++ [.resultReturn (some (homeRef r.ref)) r.src (.tok tk)] ∧ tk.nul = 0 ∧
      bits (v64 tk 0) 0 32 = e.tn.toNat ∧ bits (v64 tk 0) 32 32 = e.ver.toNat ∧ bits (v64 tk 1) 0 16 = e.asid.toNat ∧
      bits (v64 tk 1) 16 4 = stateCode e.state ∧ bits (v64 tk 1) 20 4 = e.fmt.toNat ∧ bits (v64 tk 1) 32 32 = e.pend ∧
      bits (v64 tk 2) 0 32 = e.size ∧ bits (v64 tk 2) 32 12 = e.refs) ∧
  ∀ (s : State) (asid : BitVec 16), Does .asidTeardown (.asidTeardown asid) s fun u =>
    nextlOf u asid = 1 ∧ (∀ r, r.asid = asid → findVer u r = none ∧ findTile u r.asid r.tn = none) ∧
    ∀ r e, r.asid ≠ asid → findVer s r = some e → ∃ e', findVer u r = some e' ∧ e'.bytes = e.bytes ∧ e'.state = e.state ∧
      e'.size = e.size ∧ e'.pend = e.pend ∧ e'.refs = e.refs

/-! ## Commands of the engines, the matrix unit and the links -/

/-- R319, R320, R324, R326, R328-R330: an engine command enters its queue, asks for its source or runs, at once where it moves
nothing, leaves when it completes, and, failed or cancelled, poisons its destination; a failure is reported. -/
def Obligations.EngineCommandsRunAndEnd : Prop :=
  ∀ (s : State) (e : Nat),
    (∀ c, Does .engineCommandArrival (.engineCommandArrival e c) s fun u => SameBytes s u ∧ u.engine e = s.engine e ++ [c]) ∧
    (∀ c, nextStart s e = some c →
      let k := s.core c.src.core
      (engUnits c = 0 → Gives .engineCommandStart (.engineCommandStart e) s (onCmd s 0 e c.id fun c => { c with run := true })) ∧
      (engUnits c ≠ 0 → cmdFn c = 3 ∨ (cmdFn c = 0 ∧ c.w0.getLsbD 8 = false ∧ (endpoint c.a).kind < 2) →
        Gives .engineCommandStart (.engineCommandStart e) s
          (onCmd s 0 e c.id fun c => { c with run := true, rbuf := [] })) ∧
      (engUnits c ≠ 0 → cmdFn c ≠ 3 → (endpoint c.a).kind = 2 → c.at_ = 0 → Gives .engineCommandStart (.engineCommandStart e) s
        (watchVer (onCmd s 0 e c.id fun c => { c with parked := true, luta := k.lut4a, lutb := k.lut4b })
          (refOf c.asid (endpoint c.a).a) (.engine e c.id) 64)) ∧
      (∀ v, engUnits c ≠ 0 → cmdFn c = 0 → (endpoint c.a).kind = 2 → c.at_ ≠ 0 →
        findVer s (refOf c.asid (endpoint c.a).a) = some v → v.state = .sealed_ → v.proxy = false →
        let fits := c.w0.getLsbD 8 = false ∨ expFits (endpoint c.a).lane2 v.fmt.toNat v.size (endpoint c.a).off (engForm c).n = true
        (fits → Gives .engineCommandStart (.engineCommandStart e) s (onCmd s 0 e c.id fun c => { c with run := true, rbuf := [] })) ∧
        (¬fits → Gives .engineCommandStart (.engineCommandStart e) s (failCmd s 0 e c.id 0xB (endpoint c.a).a)))) ∧
    (∀ c, findCmd s 0 e c.id = some c →
      (c.parked = true → ∀ a, Gives .engineSourceAnswer (.engineSourceAnswer e c.id a) s
        (if a = .readable then onCmd s 0 e c.id fun c => { c with parked := false, at_ := 1 }
         else failCmd s 0 e c.id (ansCause a) (endpoint c.a).a)) ∧
      ((endpoint c.b).ck = 0 → Does .engineCommandComplete (.engineCommandComplete e c.id) s fun u =>
        SameBytes s u ∧ CommandGone s u 0 e c) ∧
      (∀ v, (endpoint c.b).ck = 2 → findVer s (refOf c.asid (endpoint c.b).c) = some v → v.state = .filling → v.proxy = false →
        v.closed = false → 8 ≤ v.size → 8 < v.pend → tileHas s (refOf c.asid (endpoint c.b).c) [v] →
        Does .engineCommandComplete (.engineCommandComplete e c.id) s fun u => CommandGone s u 0 e c ∧
          FillingAs u (refOf c.asid (endpoint c.b).c) v.size (v.pend - 8) v.fmt
            (writtenAt v.bytes 0 ((leBytes (s.stamp.toNat + 2^40 * cmdFn c + 2^45 * cmdLsid c) 8).map some))) ∧
      ∀ cause tval, (endpoint c.b).ck = 0 → Does .engineCommandFail (.engineCommandFail e c.id cause tval) s fun u =>
        CommandGone s u 0 e c ∧ Reported s u c cause tval ∧
        ((endpoint c.b).kind = 2 → PoisonedIn s u (refOf c.asid (endpoint c.b).a))) ∧
    ∀ core asid loc ref, Does .xcanAtEngine (.xcanAtEngine core asid loc ref) s fun u =>
      ∀ k, k < 8 → ∀ c ∈ u.engine (coreDie core * 8 + k),
        ¬(c.src.core = core ∧ c.asid = asid ∧ engVersion c = vname (if loc then 1 else 2) core asid ref)

/-- R301, R302, R304, R305, R309-R314: a matrix command starts when it may, and its effect on planes and accumulators is made
whole when it completes: the rows of an MSTR are streamed in order, each into its accumulator row modulo 128, and an MDRN with CLR
clears the rows that it has drained; one that fails leaves NaNs. -/
def Obligations.MatrixCommandsRunAndEnd : Prop :=
  ∀ (s : State) (core : Nat) (c : Cmd), findCmd s 1 core c.id = some c →
    let m := (s.core core).mat
    let d := matDesc c.a
    (matStartBad s core c = none → Does .matrixCommandStart (.matrixCommandStart core c.id) s fun u => SameBytes s u ∧
      (∀ x ∈ (u.core core).mat.queue, x.id = c.id → x.run = true) ∧
      (u.core core).mat.cfg = (if cmdFn c = 0 then c.w1.truncate 16 else m.cfg) ∧ (u.core core).mat.acc = m.acc ∧
      (u.core core).mat.active = m.active ∧ (u.core core).mat.shadow = m.shadow) ∧
    (∀ k v, matStartBad s core c = some (k, v) →
      Gives .matrixCommandStart (.matrixCommandStart core c.id) s (failCmd s 1 core c.id k v)) ∧
    (∀ e, sealedHere s (refOf c.asid d.a) e → matRow c ≤ d.stride → d.off + matSpan c ≤ e.size →
      Gives .mldsFetchComplete (.mldsFetchComplete core c.id) s (onCmd s 1 core c.id fun x =>
        { x with buf := memBytes e.bytes d.off (matSpan c), fetched := true })) ∧
    (Does .matrixCommandComplete (.matrixCommandComplete core c.id) s fun u =>
      let n := (u.core core).mat
      CommandGone s u 1 core c ∧
      (cmdFn c = 0 → n.acc = m.acc ∧ n.active = m.active ∧ n.shadow = m.shadow) ∧
      (cmdFn c = 1 → d.rows = 64 → n.acc = m.acc ∧ n.active = m.active ∧
        n.shadow.cls.toNat = matClass (bFmt c.cfg.toNat) ∧ ∀ k j, k < 64 → j < 64 →
        elemVal (aget n.shadow.elems (64 * k + j) plusZeroElem) =
          let tr := wf c.w0 8 1 = 1
          let row := (matRows c).getD (if tr then k else j) []
          (rowVals (bFmt c.cfg.toNat) (b8Of c.cfg.toNat 11) row).getD (if tr then j else k) exPlusZero) ∧
      (cmdFn c = 2 → n.active = m.shadow ∧ n.shadow = m.active ∧ n.acc = m.acc) ∧
      (cmdFn c = 3 → n.active = m.active ∧ n.shadow = m.shadow ∧ ∀ h j, h < 128 → j < 64 →
        let stream (acc : BitVec 32) (i : Nat) : BitVec 32 :=
          let a := rowVals (aFmt c.cfg.toNat) (b8Of c.cfg.toNat 6) ((matRows c).getD i [])
          let ps := (List.range 64).map fun k => exMul (a.getD k exPlusZero) (planeAt m.active k j)
          .ofNat 32 (rndCode f32 0 (accChunk (accChunk (decodeF f32 acc.toNat) (ps.take 32)) (ps.drop 32)))
        aget n.acc (64 * h + j) 0 = ((List.range d.rows).filter fun i => (d.first + i) % 128 == h).foldl stream (accAt m h j)) ∧
      (cmdFn c = 4 → n.active = m.active ∧ n.shadow = m.shadow ∧ ∀ h j, j < 64 →
        let first := bits (c.w1.zeroExtend 64) 22 7
        aget n.acc (64 * h + j) 0 =
          if first ≤ h ∧ h < first + 4 * (wf c.w0 8 5 + 1) then 0 else aget m.acc (64 * h + j) 0) ∧
      (cmdFn c = 5 → n.active = m.active ∧ n.shadow = m.shadow ∧ ∀ h j, j < 64 → aget n.acc (64 * h + j) 0 =
        if wf c.w0 12 1 = 1 ∧ d.first ≤ h ∧ h < d.first + d.rows then 0 else aget m.acc (64 * h + j) 0)) ∧
    ∀ cause tval, Does .matrixCommandFail (.matrixCommandFail core c.id cause tval) s fun u =>
      let n := (u.core core).mat
      CommandGone s u 1 core c ∧ Reported s u c cause tval ∧ n.active = m.active ∧
      (cmdFn c = 1 → n.acc = m.acc ∧ ∀ i, i < 4096 → elemVal (aget n.shadow.elems i plusZeroElem) = .nan) ∧
      (cmdFn c = 3 → ∀ h j, h < 128 → j < 64 → aget n.acc (64 * h + j) 0 =
        if (h + 128 - d.first) % 128 < d.rows then nan32 else accAt m h j)

/-- R242, R350-R353: a link command asks for the version it reads, or sends its READ or runs; it leaves when it completes, and a
failure is reported; the peer of a failed XPUT into a version gets a WRITE of no bytes and a FAIL (log entry 32). -/
def Obligations.LinkCommandsRunAndEnd : Prop :=
  ∀ (s : State) (p : Nat),
    (∀ c, nextLink s p = some c →
      let start (Q : State → Prop) : Prop := Does .linkCommandStart (.linkCommandStart p) s Q
      let d := linkRem c
      (∀ kind ref, linkWants c = some (kind, ref) → kind = 2 → start fun u =>
        u = watchVer (onCmd s 2 p c.id fun c => { c with parked := true }) (refOf c.asid ref) (.link p c.id) 64) ∧
      (cmdFn c = 1 → start fun u => SameBytes s u ∧ (∀ x ∈ (u.port p).cmds, x.id = c.id → x.run = true ∧ x.unacked = 1) ∧
        ∃ tag, .read d.node tag (if d.dk = 0 then .addr c.asid c.user (d.a + .ofNat 64 d.off)
          else .tile (refOf c.asid d.a) d.off) (linkForm c).n none ∈ u.sent) ∧
      (cmdFn c = 0 → c.w0.getLsbD 8 = false → (endpoint c.a).kind < 2 → linkFar s c = false → start fun u => SameBytes s u ∧
        ∀ x ∈ (u.port p).cmds, x.id = c.id → x.run = true) ∧
      (cmdFn c = 0 → c.w0.getLsbD 8 = false → linkFar s c = true → c.fetched = false → findCmd s 2 p c.id = some c →
        let g := (endpoint c.a).a
        ((s.portTo (nodeOf g)).isSome = true → start fun u => SameBytes s u ∧ (∀ x ∈ (u.port p).cmds, x.id = c.id → x.run = true) ∧
          ∃ tag, .read (nodeOf g) tag (.addr c.asid c.user g) (linkBytes (linkForm c)) none ∈ u.sent) ∧
        ((s.portTo (nodeOf g)).isSome = false → start fun u =>
          .linkCommandFail p c.id 0x11 (.ofNat 64 (g.toNat / 64 * 64 + 2)) ∈ u.due))) ∧
    ∀ c, findCmd s 2 p c.id = some c →
      (∀ kind ref a, c.parked = true → linkWants c = some (kind, ref) →
        (a ≠ .readable → Gives .linkSourceAnswer (.linkSourceAnswer p c.id a) s (failCmd s 2 p c.id (ansCause a) ref)) ∧
        ((linkForm c).efq = false → Gives .linkSourceAnswer (.linkSourceAnswer p c.id .readable) s
          (onCmd s 2 p c.id fun c => { c with parked := false, at_ := c.at_ + 1 }))) ∧
      ((endpoint (linkLocal c)).ck = 0 → Does .linkCommandComplete (.linkCommandComplete p c.id) s fun u =>
        SameBytes s u ∧ CommandGone s u 2 p c) ∧
      ∀ cause tval, (endpoint (linkLocal c)).ck = 0 → c.rout = false →
        Does .linkCommandFail (.linkCommandFail p c.id cause tval) s fun u =>
          CommandGone s u 2 p c ∧ Reported s u c cause tval ∧
          (cmdFn c = 1 → (endpoint c.b).kind = 2 → PoisonedIn s u (refOf c.asid (endpoint c.b).a)) ∧
          (cmdFn c = 0 → c.run = true → (linkRem c).dk = 2 → (s.portTo (linkRem c).node).isSome = true →
            u.sent = s.sent ++ [.write (linkRem c).node c.tag (.fill (refOf c.asid (linkRem c).a) (linkRem c).off none) c.user [] false,
              .fail (linkRem c).node c.tag c.asid cause tval])

/-! ## Flits, ports and joints -/

/-- R242, R343, R344, R351, R352, R356: a flit is performed on memory or a version here and answered, or brings an answer to what
this device sent; the fold unit adds the contributions in rank order; a NOTICE's bytes lie as R345 lays them out. R341, R342,
R345, R352: training brings a port up and sends what waited for its nodes; more than four failed lanes or a fault take it down,
and its commands fail; a UCIe replay is counted and a retrain failure stops the module. -/
def Obligations.FlitsPortsAndJoints : Prop :=
  ((∀ (s : State) (node tag : Nat) (asid : BitVec 16) (g : Word) (user : Bool), isRemote (s.norm g) = false → fieldsOk g = true →
     (∀ d last leaf pa s1, s.failedIn.contains (node, tag) = false → d ≠ [] →
       g.toNat % 64 + d.length ≤ 64 → xlate s g asid user true false none = (.ok (leaf, pa), s1) → leaf.host = false →
       poolVer s (fwd s pa) = none → Does .writeFlit (.writeFlit node tag (.addr asid g) user d last) s fun u =>
         WroteDevice s u (fwd s pa) d ∧ .ack node tag asid none ∈ u.sent) ∧
     (∀ d last k s1, s.failedIn.contains (node, tag) = false → d ≠ [] → xlate s g asid user true false none = (.error k, s1) →
       Does .writeFlit (.writeFlit node tag (.addr asid g) user d last) s fun u => SameBytes s u ∧ .fail node tag asid k g ∈ u.sent ∧
         (last = false → ∀ v dest user' d' last', v.failedIn = u.failedIn →
           Does .writeFlit (.writeFlit node tag dest user' d' last') v fun w => SameBytes v w ∧ w.slices = v.slices)) ∧
     (∀ n leaf pa s1, 0 < n → g.toNat % 64 + n ≤ 64 → xlate s g asid user false false none = (.ok (leaf, pa), s1) →
       leaf.host = false → poisoned s pa = false → poolVer s (fwd s pa) = none → Does .readFlit (.readFlit node tag (.addr asid user g) n) s fun u =>
         SameBytes s u ∧ .rdata node tag asid (memBytes s.mem (fwd s pa) n) true ∈ u.sent) ∧
     (∀ op, (∀ n, op ≠ .clean n) → Gives .accessFlit (.accessFlit node tag ⟨asid, user, g, op⟩) s
       (sendAccess s ⟨.peer node tag, g, asid, user, none, op⟩)) ∧
     ∀ n, Does .accessFlit (.accessFlit node tag ⟨asid, user, g, .clean n⟩) s fun u => SameBytes s u ∧ .ack node tag asid none ∈ u.sent) ∧
   (∀ (s : State) (node tag off : Nat) (r : Ref) (e : Ver), findVer s r = some e →
     (∀ user d last, s.failedIn.contains (node, tag) = false → tileHas s r [e] → e.state = .filling → e.proxy = false →
       e.closed = false → d ≠ [] → d.length ≤ 64 → off + d.length ≤ e.size → fillCount d < e.pend →
       Does .writeFlit (.writeFlit node tag (.fill r off none) user d last) s fun u =>
         FillingAs u r e.size (e.pend - fillCount d) e.fmt (writtenAt e.bytes off d) ∧ .ack node tag r.asid none ∈ u.sent) ∧
     (∀ n, sealedHere s r e → off + n ≤ e.size → n ≤ 4096 → Does .readFlit (.readFlit node tag (.tile r off) n) s fun u =>
       SameBytes s u ∧ .rdata node tag r.asid (memBytes e.bytes off n) true ∈ u.sent) ∧
     (∀ fmt size time, e.proxy = true → e.node = node → e.state = .filling → tileHas s r [e] → e.refs ≠ 0 →
       Does .noticeFlit (.noticeFlit node r .readable fmt size time) s fun u => ∃ e', findVer u r = some e' ∧ e'.state = .sealed_ ∧
         e'.size = size ∧ e'.fmt = fmt ∧ e'.sealTime = time) ∧
     (0 < e.refs → e.refs < 0xFFF → Gives .decFlit (.decFlit node r) s
       (settleRef (onVer s r fun e => { e with refs := e.refs - 1 }) r))) ∧
   (∀ (s : State) (node tag : Nat) (m : MemReq) (src : Src), (s.tags.find? fun x => x.1 == tag) = some (tag, .mem m) →
     let freed : State := { s with tags := adel s.tags tag }
     (m.orig = .load src → s.current src = true → (majorOf (wordOf s src) ≠ 0x60 ∨ wf (wordOf s src) 12 3 ≠ 3) →
       (∀ off z fill d last, m.op = .read off z fill →
         Gives .rdataFlit (.rdataFlit node tag d last) s (freed.emit (.resultReturn (some (512 + nodeOf m.g)) src (.bytes off d)))) ∧
       ∀ cause tval, Gives .failFlit (.failFlit node tag cause tval) s (failPart freed src (cause, tval))) ∧
     (∀ c seq, m.orig = .sb c seq none → Gives .ackFlit (.ackFlit node tag none) s (sbPart freed c seq m)) ∧
     ∀ c seq cause tval, m.orig = .sb c seq (some src) → s.current src = false →
       Gives .failFlit (.failFlit node tag cause tval) s (sbPart freed c seq m)) ∧
   (∀ (s : State) (node : Nat) (l : List Nat) (ty : BitVec 8),
     Gives .creditFlit (.creditFlit node l) s s ∧ Gives .flitCrcReplay (.flitCrcReplay node) s s ∧
     Gives .unlistedTypeFlit (.unlistedTypeFlit node ty) s (s.count 6)) ∧
   ∀ (s : State) (result : Ref) (staging : BitVec 32) (nr : Nat) (g b d : Ver),
     let stage : Ref := ⟨result.asid, staging, result.ver⟩
     let base : Ref := ⟨result.asid, result.tn, result.ver - 1⟩
     findVer s stage = some g → findVer s base = some b → findVer s result = some d → g.state = .sealed_ → b.state = .sealed_ →
     g.proxy = false → b.proxy = false → d.state = .filling → d.proxy = false → d.closed = false → g.size = nr * d.size → b.size = d.size →
     b.fmt = 2 → d.fmt = 2 → d.size % 4 = 0 → d.size ≤ d.pend →
     let num (m : Mem) (a : Nat) : Ex := decodeF f32 (numAt 32 m a).toNat
     let sum (j : Nat) : Ex := (List.range nr).foldl
       (fun acc r => rnd f32 0 (exAdd false acc (num g.bytes (r * d.size + 4 * j)))) (num b.bytes (4 * j))
     let out := (List.range (d.size / 4)).flatMap fun j => leBytes (rndCode f32 0 (sum j)) 4
     Gives .fold (.fold result staging nr 2) s
       (dropRef (dropRef (settleRef (onVer s result fun e =>
         { e with bytes := memPutAll e.bytes 0 (out.map some), pend := e.pend - d.size }) result) stage).2 base).2) ∧
  (∀ (src node : Nat) (r : Ref) (a : Answer) (fmt : BitVec 4) (size : Nat) (time : BitVec 40), src < 256 → node < 256 →
     let b := noticeBytes src node r a fmt size time
     let field (at_ n : Nat) : Nat := leNat ((b.drop at_).take n)
     b.length = 64 ∧ field 0 1 = 7 ∧ field 1 1 = 1 ∧ field 2 2 = r.asid.toNat ∧ field 4 1 = src ∧ field 5 1 = node ∧ field 6 2 = 0 ∧
     field 8 4 = 0 ∧ field 12 1 = (match a with | .readable => 0 | .poisoned => 1 | .absent => 2) ∧ field 13 1 = fmt.toNat ∧
     field 14 2 = 0 ∧ field 16 4 = r.tn.toNat ∧ field 20 4 = r.ver.toNat ∧ field 24 4 = size % 2^28 ∧ field 28 5 = time.toNat ∧
     field 33 31 = 0) ∧
  (∀ (s : State) (p n : Nat),
     (Does .portTrained (.portTrained p) s fun u => SameBytes s u ∧ (u.port p).st = .up ∧ (u.port p).lanes = 0 ∧
       (u.port p).cmds = (s.port p).cmds ∧ (∀ f ∈ u.heldFlits, f ∈ s.heldFlits ∧ (u.portTo (flitNode f)).isNone = true) ∧
       ∀ f ∈ s.heldFlits, (u.portTo (flitNode f)).isSome = true → f ∈ u.sent) ∧
     (Does .portDown (.portDown p) s fun u => (u.port p).st = .down ∧
       ∀ c, findCmd s 2 p c.id = some c → c.failed = none →
         .linkCommandFail p c.id 0x11 (.ofNat 64 ((linkLane1 c).toNat / 64 * 64 + 4)) ∈ u.due) ∧
     (Does .laneFailure (.laneFailure p n) s fun u => (u.port p).lanes = (s.port p).lanes + n ∧
       (u.port p).st = (if 4 < (s.port p).lanes + n then .down
         else if (s.port p).st = .up ∧ 0 < (s.port p).lanes + n then .degraded else (s.port p).st)) ∧
     Gives .ucieReplay (.ucieReplay p) s (s.count 7) ∧
     (p < 4 → Does .ucieRetrainFailure (.ucieRetrainFailure p) s fun u => SameBytes s u ∧ u.halted = true ∧
       u.dev.fail = true ∧ u.joints.getLsbD p = false ∧ .msix 0 ∈ u.out))

/-! ## Messages and the supervisor -/

/-- R335-R338, R386: a message enters its class queue, or is spilled, or is sent again later; a handler starts with its message on
the lowest eligible strand, or its message is dropped and counted, by the HTAB entry that it reads here or over a link; a trap
message enters class 15 of its supervisor core, or is held, or waits where its collector is full. -/
def Obligations.MessagesReachCoresAndHandlers : Prop :=
  (∀ (s : State) (m : Msg) (n d : Nat),
    let k := s.core m.dest
    let q := aget s.spill m.asid.toNat []
    let here : Prop := m.trap = true ∨ (k.asid = m.asid ∧ switchedOut s m.dest m.asid = false)
    let gives (t : Nat → State) : Prop :=
      Gives .messageArrival (.messageArrival m) s (t 64) ∧ Gives .messageRetry (.messageRetry m n d) s (t d)
    let later (d : Nat) : State := { s with due := .messageRetry m (s.cycle + d) (min 8192 (2 * d)) :: s.due }
    (here → classLen k m.cls < 8 → gives fun _ => s.onCore m.dest fun k => { k with msgs := k.msgs ++ [m] }) ∧
    (here → 8 ≤ classLen k m.cls → gives later) ∧
    (¬here → (256 ≤ q.length ∨ saveArea s m.asid = none) → gives later) ∧
    ∀ a, ¬here → q.length < 256 → saveArea s m.asid = some a → s.migs = [] → NoPool s →
      let spilled (u : State) : Prop := aget u.spill m.asid.toNat [] = q ++ [⟨m, imageFor s m, none⟩] ∧
        numAt 64 u.mem a = .ofNat 64 (q.length + 1) ∧ (u.core m.dest).msgs = k.msgs ∧ u.due = s.due
      Does .messageArrival (.messageArrival m) s spilled ∧ Does .messageRetry (.messageRetry m n d) s spilled) ∧
  (∀ (s : State) (c t : Nat) (m : Msg),
    firstMsg (s.core c) = some m → ((List.range 16).find? fun t => takesMessage s c t) = some t →
    let k := s.core c
    let d := s.strand c t
    let g := s.norm (k.htab + .ofNat 64 (8 * m.cls))
    let user := !statusMode d.status
    let starts (Q : State → Prop) : Prop := Does .handlerStart (.handlerStart c) s fun u =>
      k.msgs.erase m <+: (u.core c).msgs ∧ (u.strand c t).status = d.status ∧ Q u
    let dropped : Prop := starts fun u => aget u.events 1 0 = aget s.events 1 0 + 1 ∧ (u.strand c t).hnd = d.hnd ∧
      (u.strand c t).bpc = d.bpc ∧ (u.strand c t).g = d.g ∧ (u.strand c t).v = d.v
    let takes (entry : Option Word) : Prop := (entry = none → dropped) ∧ ∀ x, entry = some x →
      (x.getLsbD 0 = false → dropped) ∧
      (x.getLsbD 0 = true → m.core < 2^13 → m.strand < 2^4 → m.cls < 2^4 → starts fun u =>
        let e := u.strand c t
        e.hnd = true ∧ e.rbpc = (if d.live then some d.bpc else none) ∧ e.bpc = x &&& ~~~63 ∧ e.phase = .entering ∧
        e.v.getD 15 0 = m.pay ∧ bits (e.g.getD 31 0) 0 13 = m.core ∧ bits (e.g.getD 31 0) 13 4 = m.strand ∧
        bits (e.g.getD 31 0) 17 7 = m.cls ∧ bits (e.g.getD 31 0) 24 40 = m.time.toNat ∧
        (∀ i, i ≠ 31 → e.g.getD i 0 = d.g.getD i 0) ∧ ∀ i, i ≠ 15 → e.v.getD i 0 = d.v.getD i 0)
    ((isRemote g && addrOk s g) = false →
      takes ((readGlobal s g k.asid user (some c) 8).1.map fun bytes => .ofNat 64 (leNat bytes))) ∧
    (isRemote g = true → addrOk s g = true →
      (∀ x, k.htabRead = some (htabKey (g, user), some x) → takes x) ∧
      (k.htabRead = none → Does .handlerStart (.handlerStart c) s fun u => SameBytes s u ∧ (u.core c).msgs = k.msgs ∧
        (∀ t, u.strand c t = s.strand c t) ∧ ∃ tag, .read (nodeOf g) tag (.addr k.asid user g) 8 none ∈ u.sent))) ∧
  ∀ (s : State) (m : TrapMsg),
    let q := aget s.collectors (m.die * 16 + m.row) []
    let sup := m.die * 2048 + m.row % 4
    mergeDue m s.due = none → mergeHeld m q = none →
    (q = [] → classLen (s.core sup) 15 < 8 → m.kind < 2^8 → m.row < 2^8 → m.die < 2^8 → m.count < 2^16 →
      Does .trapMessageAtCollector (.trapMessageAtCollector m) s fun u => ∃ x, (u.core sup).msgs = (s.core sup).msgs ++ [x] ∧
        x.cls = 15 ∧ x.dest = sup ∧ x.trap = true ∧ x.time = m.time ∧
        let f (lo n : Nat) : Nat := x.pay.toNat / 2^lo % 2^n
        f 0 8 = m.kind ∧ f 8 8 = m.cause.toNat ∧ f 16 16 = m.asid.toNat ∧ f 32 8 = m.row ∧ f 40 8 = m.die ∧
        f 48 16 = m.code.toNat ∧ f 64 64 = m.tval.toNat ∧ f 128 128 = m.cores.toNat ∧ f 256 64 = m.tblk.toNat ∧
        f 320 40 = m.ttime.toNat ∧ f 360 24 = 0 ∧ f 384 16 = m.count ∧ f 400 112 = 0) ∧
    ((q ≠ [] ∨ 8 ≤ classLen (s.core sup) 15) → Gives .trapMessageAtCollector (.trapMessageAtCollector m) s
      (if q.length < 64 then { s with collectors := aput s.collectors (m.die * 16 + m.row) (q ++ [m]) }
       else { s with due := .trapMessageAtCollector m :: s.due }))

/-- R189, R205, R266-R269, R274, R275, R394: what a walk finds in the tables, and which finding faults; a TLBINV drops the translations and L1 lines of its die, acts on the HELD strands it names and is
acknowledged; after the last acknowledgement its completion is filled; a migration is refused or recorded, and moves a line; with
the last line the leaf's FRAME is written and the TLB entry follows, unless the leaf is no longer there, and the completion is filled
with status 0 or 2. -/
def Obligations.SupervisorRequestsComplete : Prop :=
  (∀ (s : State) (die : Nat) (asid : BitVec 16) (va : Nat),
    let f (w : Word) (lo n : Nat) : Nat := w.toNat / 2^lo % 2^n
    let entry (pa : Nat) (k : Word → Except Nat Leaf) : Except Nat Leaf := if poisoned s pa = true then .error 0x17 else k (physWord s pa)
    let leaf (big : Bool) (e : Word) : Except Nat Leaf :=
      let frame := f e 21 30 * 2^21
      if f e 0 2 = 3 ∧ f e 9 12 = 0 ∧ f e 5 2 ≠ 3 ∧ (big = true → f e 21 4 = 0) ∧ (f e 5 2 ≠ 2 → f e 51 13 = 0) ∧
          (f e 8 1 = 1 ∨ inHbm frame = true) then
        .ok { frame := frame, big := big, w := e.getLsbD 2, x := e.getLsbD 3, u := e.getLsbD 4, attr := .ofNat 2 (f e 5 2)
              disc := e.getLsbD 7, host := e.getLsbD 8, owner := f e 51 13 }
      else .error 7
    let pointer (align : Nat) (e : Word) (k : Nat → Except Nat Leaf) : Except Nat Leaf :=
      let next := f e 7 44 * 128
      if f e 0 7 = 1 ∧ f e 51 13 = 0 ∧ next % align = 0 ∧ inHbm next = true then k next else .error 7
    walk s die asid va = entry (die * 2^38 + 8 * asid.toNat) (fun e =>
      let root := f e 15 36 * 2^15
      if f e 0 15 = 1 ∧ f e 51 13 = 0 ∧ inHbm root = true then
        entry (root + 8 * (va / 2^36 % 2^12)) fun e => pointer (2^14) e fun table =>
          entry (table + 8 * (va / 2^25 % 2^11)) fun e =>
            if f e 1 1 = 1 then leaf true e
            else pointer (2^7) e fun table => entry (table + 8 * (va / 2^21 % 2^4)) (leaf false)
      else .error 7) ∧
    ∀ pa, poolVer s (fwd s pa) = none → physWord s pa = numAt 64 s.mem (fwd s pa)) ∧
  (∀ (s : State) (r : Tlbinv) (die : Nat), Does .tlbinvAtDie (.tlbinvAtDie r die) s fun u => SameBytes s u ∧
    .tlbinvAck r.id die ∈ u.due ∧
    (∀ e ∈ u.tlb, e ∈ s.tlb ∧ ¬(e.die = die ∧ tlbinvAsid r e.asid = true ∧ tlbinvMeets r e.va (pageLen e.leaf) = true)) ∧
    (∀ e ∈ s.tlb, e.die ≠ die → e ∈ u.tlb) ∧
    (∀ c, coreDie c = die → ∀ l ∈ (u.core c).l1, tlbinvAsid r l.asid = false) ∧
    (∀ c, coreDie c ≠ die → u.core c = s.core c) ∧
    ∀ c t n, coreDie c = die → t < 16 → (s.strand c t).phase = .held n → tlbinvAsid r (s.core c).asid = true →
      tlbinvMeets r (bits (s.strand c t).tval 0 48) 1 = true →
      let d := s.strand c t
      let e := u.strand c t
      (r.act = 0 → e = d) ∧ (r.act = 1 → e.bpc = d.resume ∧ e.phase = .boundary ∧ e.status = d.status) ∧
      (r.act = 2 → d.block = none →
        Trapped s u c t ⟨d.tcause.truncate 8, 0, d.tval, d.tblk, d.tlsid.truncate 6, d.tblk⟩) ∧
      (r.act = 3 → e.live = false ∧ e.phase = .idle)) ∧
  (∀ (s : State) (id die : Nat) (r : Tlbinv), (s.tlbinvs.find? fun x => x.id == id) = some r →
    let acked := r.acked ||| .ofNat 4 (2^die)
    let ack (t : State) : Prop := Gives .tlbinvAck (.tlbinvAck id die) s t
    (acked ≠ r.dies →
      ack { s with tlbinvs := s.tlbinvs.map fun x => if x.id == id then { x with acked := acked } else x }) ∧
    (acked = r.dies → NoPool s → Does .tlbinvAck (.tlbinvAck id die) s fun u => SameBytes s u ∧
      u.tlbinvs = s.tlbinvs.filter (fun x => x.id != id) ∧
      (∀ c, r.dies.getLsbD (coreDie c) = true → ∀ l ∈ (u.core c).l1, tlbinvAsid r l.asid = false) ∧
      FilledWith s u r.done s.stamp.toNat)) ∧
  (∀ (s : State) (m : Migration),
    let pmig (Q : State → Prop) : Prop := Does .pmigAtTranslator (.pmigAtTranslator m) s Q
    let refuses : Prop := pmig fun u => FilledWith s u m.done 1 ∧ u.migs = s.migs ∧ (NoPool s → u.mem = s.mem) ∧
      (m.done.ver = 0 → u = walked s m.die m.asid m.va)
    (∀ c, walk s m.die m.asid m.va = .error c → refuses) ∧
    ∀ leaf, walk s m.die m.asid m.va = .ok leaf →
      let va := pageBase leaf m.va
      let refused : Prop := leaf.host = true ∨ (leaf.big = true ∧ m.new % 2^25 ≠ 0) ∨
        (∃ x ∈ s.migs, x.die = m.die ∧ x.asid = m.asid ∧ x.va = va) ∨ 16 ≤ (s.migs.filter fun x => x.die == m.die).length
      (refused → refuses) ∧
      (¬refused → pmig fun u =>
        u = { walked s m.die m.asid m.va with migs := s.migs ++ [{ m with va := va, big := leaf.big, old := leaf.frame, cursor := 0 }] })) ∧
  ∀ (s : State) (m : Migration),
    let size := if m.big then 2^25 else 2^21
    let old := m.old + m.cursor
    let new := m.new + m.cursor
    let reads := walkReads s m.die m.asid m.va
    let move (Q : State → Prop) : Prop := Does .migrationLineMove (.migrationLineMove 0) s Q
    s.migs = [m] → m.old % 128 = 0 → m.new % 128 = 0 → m.cursor % 128 = 0 → NoPool s →
    (m.old + size ≤ m.new ∨ m.new + size ≤ m.old) → (∀ e ∈ s.undo, e.1 ≠ old / 128) →
    (m.cursor + 128 < size → move fun u => u.migs = [{ m with cursor := m.cursor + 128 }] ∧
      (∀ j, j < 128 → memRead u.mem (new + j) = memRead s.mem (old + j) ∧ fwd u (old + j) = new + j) ∧
      (∀ a, a < new ∨ new + 128 ≤ a → memRead u.mem a = memRead s.mem a) ∧
      u.poison.contains (new / 128) = s.poison.contains (old / 128) ∧ u.poison.contains (old / 128) = false) ∧
    (m.cursor + 128 = size → m.new < 2^51 →
      (∀ pa ∈ reads, (pa < m.old ∨ m.old + size ≤ pa) ∧ pa / 128 ≠ new / 128) →
      let moved (u : State) : Prop := u.migs = [] ∧ ∀ j, j < 128 → memRead u.mem (new + j) = memRead s.mem (old + j)
      let stale : Prop := move fun u => moved u ∧ FilledWith s u m.done 2 ∧
        ∀ a, a < new ∨ new + 128 ≤ a → memRead u.mem a = memRead s.mem a
      match leafAddr s m.die m.asid m.va with
      | none => stale
      | some p =>
        let e : Word := numAt 64 s.mem p
        (poisoned s p = true ∨ e.getLsbD 0 = false → stale) ∧
        (poisoned s p = false → e.getLsbD 0 = true → move fun u =>
          let e' : Word := numAt 64 u.mem p
          moved u ∧ FilledWith s u m.done 0 ∧ bits e' 21 30 = m.new / 2^21 ∧ bits e' 0 21 = bits e 0 21 ∧ bits e' 51 13 = bits e 51 13 ∧
          (∀ a, (a < new ∨ new + 128 ≤ a) → (a < p ∨ p + 8 ≤ a) → memRead u.mem a = memRead s.mem a) ∧
          ∀ x ∈ u.tlb, x.die = m.die → x.asid = m.asid → x.va = m.va → x.leaf.frame = m.new))

/-! ## The Larder -/

/-- R280, R281, R288, R290-R294: what happens to a stream's entry: a sealed input arrives, silence evicts it, a move ends, and
each request of the Larder's instructions changes the entry as its operation says, or is refused. R283-R286: a step build walks
the ready streams in order within its budget, applies each grant to an entry that has not changed state, and its batch version is
sealed with its header and entries (SSET.ctx onto a version at REFS 0xFFE, and the confirmation of SNEW as a request of its own: log
entry 67). -/
def Obligations.LarderEntriesAndBuilds : Prop :=
  ((∀ (s : State) (k : Nat),
     let e := s.lentry k
     let same (u : State) (f : LEntry) : Prop := u.lentry k = { f with moving := (u.lentry k).moving } ∧
       ∀ j, j ≠ k → u.lentry j = { s.lentry j with moving := (u.lentry j).moving }
     let freed (u : State) : Prop := u.lentry k = { LEntry.reset with gen := e.gen }
     let moved (icon inext : BitVec 32) (st rest : Nat) : Nat :=
       if e.cver ≠ 0 then st else if icon.toNat < inext.toNat then 2 else rest
     let came (tokens : Nat) (fin : Bool) : LEntry := { e with
       inext := e.inext + 1, ptok := min (e.ptok + tokens) (2^24 - 1), last := s.stamp, eos := e.eos || fin
       state := if e.state = 1 then 2 else if e.state = 6 then moved e.icon (e.inext + 1) 7 1 else e.state }
     let ended (st : Nat) (u : State) : Prop :=
       if e.finp then freed u else u.lentry k = { e with state := st, moving := (u.lentry k).moving }
     (∀ gen a size fin,
       let live : Prop := e.state ≠ 0 ∧ e.gen.toNat = gen ∧ e.auto = true
       (¬live → Gives .autoInputSeal (.autoInputSeal k gen a size fin) s s) ∧
       (live → Does .autoInputSeal (.autoInputSeal k gen a size fin) s fun u =>
         (a = .readable → same u (came ((size + 2^e.tsh - 1) / 2^e.tsh) fin)) ∧
         (a ≠ .readable → same u { e with
           inext := e.inext + 1, err := true, last := s.stamp
           rst := if e.state = 1 ∨ e.state = 2 ∨ e.state = 3 then e.state else e.rst
           state := if e.state = 1 ∨ e.state = 2 ∨ e.state = 3 then 4
             else if e.state = 6 then moved e.icon (e.inext + 1) 7 1 else e.state }))) ∧
     Does .silenceTimeout (.silenceTimeout k) s (fun u => same u { e with state := moved e.icon e.inext 5 6, rst := 1 } ∧
       (e.cver ≠ 0 → (u.lentry k).moving.isSome = true)) ∧
     Does .evictionComplete (.evictionComplete k) s (ended (if e.icon.toNat < e.inext.toNat then moved e.icon e.inext 7 1 else 6)) ∧
     Does .restoreComplete (.restoreComplete k) s (ended (if e.icon.toNat < e.inext.toNat then 2 else 1)) ∧
     Does .restoreTimeout (.restoreTimeout k) s (ended (if e.icon.toNat < e.inext.toNat then 2 else 1)) ∧
     ∀ (die : Nat) (h : Word) (src : Src) (asid : BitVec 16) (blk : Word) (launch : Option (BitVec 16 × BitVec 32)) (seq : Option Nat),
       handleOk s asid h = true → handleEntry h = k →
       let asks (q : LReq) (Q : State → Prop) : Prop := Does .larderRequest (.larderRequest die q src asid blk launch seq) s Q
       let isNow (f : LEntry) (u : State) : Prop := same u f
       let refused : State → Prop := isNow { e with rej := min 255 (e.rej + 1) }
       let busy : Prop := e.state = 1 ∨ e.state = 2 ∨ e.state = 3
       (∀ n fin, asks (.sarr h n fin) (if e.auto then refused else isNow (came n fin))) ∧
       (∀ arg, asks (.sset 0 h arg) (if e.state = 2 then isNow { e with state := 3, last := s.stamp } else refused)) ∧
       (∀ arg, asks (.sset 1 h arg)
         (if e.state = 3 then isNow { e with state := if 0 < e.ptok then 2 else 1, last := s.stamp } else refused)) ∧
       (∀ arg, asks (.sset 2 h arg)
         (if e.state = 5 ∨ e.state = 7 then isNow { e with finp := true, last := s.stamp } else freed)) ∧
       (∀ arg, (busy → asks (.sset 3 h arg) (isNow { e with rst := e.state, state := 4, last := s.stamp })) ∧
         (¬busy → asks (.sset 3 h arg) refused)) ∧
       (∀ arg, asks (.sset 4 h arg)
         (if e.state = 4 then isNow { e with state := if e.rst = 1 ∧ 0 < e.ptok then 2 else e.rst, last := s.stamp }
          else if e.state = 6 then isNow { e with state := moved e.icon e.inext 7 1, last := s.stamp } else refused)) ∧
       (∀ arg, (¬busy → e.state ≠ 4 → asks (.sset 5 h arg) refused) ∧
         (busy ∨ e.state = 4 → bits arg 0 32 ≤ e.cver.toNat → asks (.sset 5 h arg) refused) ∧
         (busy ∨ e.state = 4 → e.cver.toNat < bits arg 0 32 →
           ((findVer s ⟨e.asid, e.ctn, .ofNat 32 (bits arg 0 32)⟩ = none → asks (.sset 5 h arg)
             (isNow { e with err := true, last := s.stamp })) ∧
           ∀ v, (findTile s e.asid e.ctn).isSome = true → findVer s ⟨e.asid, e.ctn, .ofNat 32 (bits arg 0 32)⟩ = some v →
             asks (.sset 5 h arg) (isNow (if v.state = .poisoned ∨ v.refs = 0xFFE then { e with err := true, last := s.stamp }
               else { e with cver := .ofNat 32 (bits arg 0 32), last := s.stamp }))))) ∧
       (∀ arg, asks (.sset 6 h arg) (if bits arg 3 5 = 0 ∧ bits arg 17 47 = 0 then
           isNow { e with prio := bits arg 0 3, dtok := bits arg 8 8, pin := arg.getLsbD 16, last := s.stamp }
         else refused)) ∧
       (∀ arg, asks (.sset 7 h arg) (isNow { e with last := s.stamp })) ∧
       (e.state < 8 → e.rst < 8 → e.prio < 8 → e.dtok < 256 → e.tsh < 16 → e.ptok < 2^24 → e.rej < 256 → e.pgr < 2^24 →
         asks (.sqry h) fun u => ∃ tk, u.due = s.due ++ [.resultReturn (some (300 + bits h 14 2)) src (.tok tk)] ∧ tk.nul = 0 ∧
           bits (v64 tk 0) 0 16 = e.asid.toNat ∧ bits (v64 tk 0) 16 3 = e.state ∧ bits (v64 tk 0) 19 3 = e.rst ∧
           bits (v64 tk 0) 22 3 = e.prio ∧ (v64 tk 0).getLsbD 25 = e.pin ∧ (v64 tk 0).getLsbD 26 = e.auto ∧
           (v64 tk 0).getLsbD 27 = e.eos ∧ (v64 tk 0).getLsbD 28 = e.err ∧ (v64 tk 0).getLsbD 29 = e.finp ∧
           (v64 tk 0).getLsbD 30 = e.rsv.isSome ∧ bits (v64 tk 0) 32 16 = e.gen.toNat ∧ bits (v64 tk 0) 48 8 = e.dtok ∧
           bits (v64 tk 0) 56 4 = e.tsh ∧ bits (v64 tk 1) 0 32 = e.skey.toNat ∧ bits (v64 tk 1) 32 32 = e.tout.toNat ∧
           bits (v64 tk 2) 0 32 = e.ctn.toNat ∧ bits (v64 tk 2) 32 32 = e.cver.toNat ∧ bits (v64 tk 3) 0 32 = e.itn.toNat ∧
           bits (v64 tk 3) 32 32 = e.inext.toNat ∧ bits (v64 tk 4) 0 32 = e.icon.toNat ∧ bits (v64 tk 4) 32 24 = e.ptok ∧
           bits (v64 tk 4) 56 8 = e.rej ∧ bits (v64 tk 5) 0 24 = e.pgr ∧ bits (v64 tk 5) 24 40 = e.last.toNat)) ∧
   ∀ (s : State) (die : Nat) (src : Src) (asid : BitVec 16) (blk : Word),
     let asks (q : LReq) (Q : State → Prop) : Prop := Does .larderRequest (.larderRequest die q src asid blk none none) s Q
     (∀ h, handleOk s asid h = false → (s.strand src.core src.strand).report = none →
       let told (q : LReq) : Prop :=
         asks q fun u => (u.strand src.core src.strand).report = some (reportRec 8 h blk src.lsid) ∧ ∀ j, u.lentry j = s.lentry j
       (∀ n fin, told (.sarr h n fin)) ∧ ∀ op arg, told (.sset op h arg)) ∧
     (∀ d place,
       let die := if place.getLsbD 2 then freestDie s else bits place 0 2
       let back (status : Nat) (u : State) : Prop := u = s.emit (.resultReturn (some (300 + die)) src (.tok (dTok (status * 2^32))))
       (s.ldcfg.getLsbD 0 = false → asks (.snew d place) (back 2)) ∧
       (s.ldcfg.getLsbD 0 = true → snewOk d place = false → asks (.snew d place) (back 3)) ∧
       (s.ldcfg.getLsbD 0 = true → snewOk d place = true →
         (∀ i, i < 4096 → (s.lentry (die * 4096 + i)).state ≠ 0 ∨ (s.lentry (die * 4096 + i)).rsv.isSome = true) →
         asks (.snew d place) (back 1)) ∧
       (s.ldcfg.getLsbD 0 = true → snewOk d place = true →
         (∃ i, i < 4096 ∧ (s.lentry (die * 4096 + i)).state = 0 ∧ (s.lentry (die * 4096 + i)).rsv = none) →
         asks (.snew d place) fun u => ∃ i, i < 4096 ∧ (s.lentry (die * 4096 + i)).state = 0 ∧
           (s.lentry (die * 4096 + i)).rsv = none ∧
           let k := die * 4096 + i
           let gen := (u.lentry k).gen
           gen = nextGen (s.lentry k).gen ∧ (s.current src = true → (u.lentry k).rsv = some src) ∧
           u.due = s.due ++ [.resultReturn (some (300 + die)) src (.tok (dTok (i + die * 2^14 + gen.toNat * 2^16)))])) ∧
     (∀ k d, bits (v64 ⟨d, 0⟩ 1) 32 32 = 0 → (v64 ⟨d, 0⟩ 0).getLsbD 36 = false → asks (.confirm k d) fun u =>
       u.lentry k = { LEntry.reset with
         gen := (s.lentry k).gen, asid := asid, state := 1, prio := bits (v64 ⟨d, 0⟩ 0) 32 3, pin := (v64 ⟨d, 0⟩ 0).getLsbD 35
         tsh := bits (v64 ⟨d, 0⟩ 0) 40 4, dtok := bits (v64 ⟨d, 0⟩ 0) 48 8, skey := .ofNat 32 (bits (v64 ⟨d, 0⟩ 0) 0 32)
         ctn := .ofNat 32 (bits (v64 ⟨d, 0⟩ 1) 0 32), itn := .ofNat 32 (bits (v64 ⟨d, 0⟩ 2) 0 32)
         inext := .ofNat 32 (bits (v64 ⟨d, 0⟩ 2) 32 32), icon := .ofNat 32 (bits (v64 ⟨d, 0⟩ 2) 32 32)
         tout := .ofNat 32 (bits (v64 ⟨d, 0⟩ 3) 0 32), last := s.stamp }) ∧
     ∀ budget btn, asks (.sbld budget btn) fun u => ∃ b, u = { s with builds := s.builds ++ [b] } ∧ b.asid = asid ∧
       b.budget = budget ∧ b.btn = btn ∧ b.start = none) ∧
  ((∀ (s : State) (b : Build) (rest : List Build), s.builds = b :: rest →
     let plans := walkPlans (walkOrder s b.asid) b.budget 0
     let r : Ref := ⟨b.asid, b.btn, .ofNat 32 (hwmOf s b.asid b.btn + 1)⟩
     let made := createVer s r { size := 64 + 32 * plans.length, pend := 64 + 32 * plans.length
                                 refs := bits (s.ldcfg.zeroExtend 64) 1 12, fmt := 0, pin := false, hbm := false, proxy := none
                                 fork := none }
     (plans.map (·.grant)).sum ≤ b.budget ∧ plans.length ≤ 1024 ∧
     (∀ p ∈ plans, (p.entry, p.snap) ∈ s.larder ∧ p.snap.asid = b.asid ∧
       ((p.snap.state = 3 ∧ p.grant ≤ max p.snap.dtok 1) ∨
        (p.snap.state = 2 ∧ p.snap.icon.toNat < p.snap.inext.toNat ∧ p.grant ≤ p.snap.ptok))) ∧
     (plans.Pairwise fun p q => p.snap.state = q.snap.state ∨ (p.snap.state = 3 ∧ q.snap.state = 2)) ∧
     (plans.Pairwise fun p q => p.snap.state = q.snap.state → q.snap.prio < p.snap.prio ∨
       (p.snap.prio = q.snap.prio ∧ p.snap.last.toNat ≤ q.snap.last.toNat)) ∧
     (∀ s1, made = .ok s1 → Gives .stepBuild .stepBuild s
       { s1 with builds := onNth (fun b => { b with start := some s1.timebase.toNat, ver := r.ver, plans := plans }) s1.builds 0 }) ∧
     (∀ k, made = .error k → Does .stepBuild .stepBuild s fun u => u.builds = rest) ∧
     ∀ (p : Plan) (ps : List Plan), b.plans = p :: ps →
       let e := s.lentry p.entry
       let u := grantNext s
       let prefill := p.snap.state = 2
       let rest' (f : Build → Build) : Prop := u.builds = f { b with plans := ps } :: rest
       (∀ j, j ≠ p.entry → u.lentry j = s.lentry j) ∧
       (e.state ≠ p.snap.state ∨ e.gen ≠ p.snap.gen → u.lentry p.entry = e ∧ rest' id) ∧
       (e.state = p.snap.state → e.gen = p.snap.gen → p.snap.state = 2 ∨ p.snap.state = 3 →
         u.lentry p.entry = (if prefill then
           (if p.grant = p.snap.ptok then { e with last := s.stamp, icon := p.snap.inext, ptok := e.ptok - p.grant, pgr := 0 }
            else { e with last := s.stamp, ptok := e.ptok - p.grant, pgr := min (e.pgr + p.grant) (2^24 - 1) })
           else { e with last := s.stamp }) ∧
         ∃ x : List Byte, x.length = 32 ∧
           rest' (fun b => { b with
             bytes := b.bytes ++ x, decodes := b.decodes + (if prefill then 0 else 1), tokens := b.tokens + p.grant }) ∧
           let f (at_ n : Nat) : Nat := leNat ((x.drop at_).take n)
           (p.entry < 2^14 → f 0 4 = p.entry % 4096 + p.entry / 4096 * 2^14 + p.snap.gen.toNat * 2^16) ∧
           f 4 4 = p.snap.skey.toNat ∧ f 8 4 = p.snap.cver.toNat ∧ f 12 4 = (if prefill then p.snap.icon.toNat else 0) ∧
           f 16 2 = (if prefill then (p.snap.inext.toNat - p.snap.icon.toNat) % 2^16 else 0) ∧ f 18 2 = p.grant % 2^16 ∧
           f 20 4 = (if prefill then p.snap.pgr % 2^32 else 0) ∧ f 24 1 = (if prefill then 1 else 0) ∧
           f 25 1 = (if prefill ∧ p.grant < p.snap.ptok then 1 else 0) + (if p.snap.eos then 2 else 0) ∧ f 26 6 = 0)) ∧
   ∀ (s : State) (b : Build) (rest : List Build) (n : Nat) (v : Ver), s.builds = b :: rest → b.bytes.length = 32 * n →
     let r : Ref := ⟨b.asid, b.btn, b.ver⟩
     let head := leBytes n 4 ++ leBytes b.decodes 2 ++ leBytes (n - b.decodes) 2 ++ leBytes (b.start.getD 0) 8 ++
       leBytes b.tokens 4 ++ leBytes b.budget 4 ++ List.replicate 40 0
     findVer s r = some v → tileHas s r [v] → v.state = .filling → v.proxy = false → v.guard = none → v.fin = false →
     v.closed = false → v.refs ≠ 0 → v.waiters = [] → v.pend = v.size → 64 + 32 * n ≤ v.size →
     Does .batchSeal .batchSeal s fun u => u.builds = rest ∧ ∃ w, findVer u r = some w ∧ w.state = .sealed_ ∧
       w.size = 64 + 32 * n ∧ ∀ a, a < 64 + 32 * n → memRead w.bytes a = (head ++ b.bytes).getD a 0)

/-! ## The dispatcher -/

/-- R29, R359, R360, R363-R367, R369, R370: which record and which hierarchy is rejected; version NEXTL is watched, accepted with its
record, rejected, or skipped; an answered prerequisite, a reached NOTBEFORE and aging move a launch toward its placement. -/
def Obligations.LaunchesAreAcceptedAndRanked : Prop :=
  (∀ (asid : BitVec 16) (raw : List Byte),
    let n (o k : Nat) : Nat := leNat ((raw.drop o).take k)
    recordBad asid raw = false ↔
      n 0 8 % 64 = 0 ∧ n 9 1 < 8 ∧ 1 ≤ n 10 1 ∧ n 10 1 ≤ 8 ∧ n 11 1 ≤ 1 ∧ n 12 2 = asid.toNat ∧ 1 ≤ n 14 1 ∧ n 14 1 ≤ 15 ∧
      n 15 1 = 0 ∧ n 36 4 < 32 ∧ (n 11 1 = 0 → n 40 4 = 0) ∧ n 44 4 = 0 ∧ (∀ x ∈ raw.drop 152, x = 0) ∧
      (n 11 1 = 1 → n 48 8 / 2^32 = n 40 4 ∧ n 48 8 % 2^32 ≠ 0) ∧
      ∀ k, k < 8 → let w := n (80 + 8 * k) 8
        if k < n 10 1 then w / 2^19 % 2 = 0 ∧ w / 2^20 % 8 ≤ 5 ∧ w / 2^23 = 0 else w = 0) ∧
  (∀ raw : List Byte,
    let n (o k : Nat) : Nat := leNat ((raw.drop o).take k)
    let levels := n 10 1
    let count (k : Nat) : Nat := n (80 + 8 * k) 2 + 1
    let dom (k : Nat) : Nat := n (82 + 8 * k) 1 % 8
    let cap (k : Nat) : Nat := [1, 16, 64, 256, 2048, 32704, 130816, 130816].getD (dom k) 0
    let unit (k : Nat) : Nat := if dom (k + 1) ≤ dom k ∨ dom k = 0 then 1 else if dom k = 1 then 16 else 64
    hierarchyBad raw = false ↔
      (∀ k, k < levels → ((List.range (k + 1)).map count).foldl (· * ·) 1 ≤ cap k) ∧
      (∀ k, k + 1 < levels → dom k ≤ dom (k + 1)) ∧ (levels ≠ 0 → 6 ≤ dom (levels - 1) → n 14 1 = 15) ∧
      ∀ size : Nat → Nat, size 0 = count 0 →
        (∀ k, size (k + 1) = (size k + unit k - 1) / unit k * unit k * count (k + 1)) → ∀ k, k < levels → size k ≤ cap k) ∧
  (∀ (s : State) (asid : BitVec 16) (ver : BitVec 32) (p : Nat) (l : Launch), findLaunch s asid ver = some l →
    let met (ok : Nat → Prop) : Prop := ∀ q, q < 4 → bits (recPre l.raw q) 0 32 ≠ 0 → ok q
    let becomes (u : State) (Q : Launch → Prop) : Prop := ∃ l', findLaunch u asid ver = some l' ∧ Q l'
    let eligible (since : Nat) (u : State) : Prop := becomes u fun l' => l'.elig = some (max since (recNotBefore l.raw)) ∧
      l'.cls = recPrio l.raw ∧ l'.clsAt = s.now ∧ .placementPass ∈ u.due
    let answered (a : Answer) (Q : Nat → State → Prop) : Prop :=
      ∀ time, Does .prerequisiteAnswer (.prerequisiteAnswer asid ver p a time) s (Q time)
    let reached (Q : State → Prop) : Prop := Does .notbeforeReached (.notbeforeReached asid ver) s Q
    (l.notBefore = true → met (fun q => q = p ∨ q ∈ l.preOk) → answered .readable fun time => eligible (max l.since time)) ∧
    (¬(l.notBefore = true ∧ met fun q => q = p ∨ q ∈ l.preOk) → answered .readable fun _ u => becomes u fun l' =>
      l'.elig = l.elig ∧ l'.preOk = l.preOk ++ [p]) ∧
    (∀ a, a ≠ .readable → answered a fun _ u => LaunchGone s u asid ver ∧
      FilledWith s u (refOf l.asid (recDone l.raw)) (s.stamp.toNat + 2^40 * 3)) ∧
    (met (fun q => q ∈ l.preOk) → reached (eligible l.since)) ∧
    (¬met (fun q => q ∈ l.preOk) → reached fun u => becomes u fun l' => l'.notBefore = true ∧ l'.elig = l.elig) ∧
    ∀ e, l.elig = some e → l.lease = none → let c := min 7 (recPrio l.raw + (s.now - e) / 2000000)
      (c = l.cls → Gives .classAging (.classAging asid ver) s s) ∧
      (c ≠ l.cls → Does .classAging (.classAging asid ver) s fun u => .placementPass ∈ u.due ∧
        becomes u fun l' => l' = { l with cls := c, clsAt := s.now })) ∧
  ∀ (s : State) (asid : BitVec 16),
    let r : Ref := ⟨asid, 0xFFFFFFFF, .ofNat 32 (nextlOf s asid)⟩
    let accept (Q : State → Prop) : Prop := Does .launchAccept (.launchAccept asid) s Q
    let next (u : State) : Prop := nextlOf u asid = (nextlOf s asid + 1) % 2^32
    let skipped : Prop := accept fun u => next u ∧ u.launches = s.launches ∧ aget u.events 2 0 = aget s.events 2 0 + 1
    (findVer s r = none → hwmOf s asid r.tn < r.ver.toNat →
      accept fun u => u = if nextlWatched s asid then s else watchVer s r .nextl 64) ∧
    (findVer s r = none → r.ver.toNat ≤ hwmOf s asid r.tn → skipped) ∧
    ∀ e, findVer s r = some e →
      (e.state = .poisoned → skipped) ∧
      (e.state = .sealed_ → e.size ≠ 256 ∨ e.fmt ≠ 0 → skipped) ∧
      (e.state = .sealed_ → e.size = 256 → e.fmt = 0 → e.proxy = false →
        let raw := memBytes e.bytes 0 256
        let refused (status : Nat) : Prop := accept fun u => next u ∧ u.launches = s.launches ∧
          FilledWith s u (refOf asid (recDone raw)) (s.stamp.toNat + 2^40 * status)
        (recordBad asid raw = true → refused 1) ∧
        (recordBad asid raw = false → hierarchyBad raw = true → refused 2) ∧
        (recordBad asid raw = false → hierarchyBad raw = false → findLaunch s asid r.ver = none → accept fun u => next u ∧
          ∃ l, u.launches = s.launches ++ [l] ∧ l.asid = asid ∧ l.ver = r.ver ∧ l.raw = raw ∧ l.lease = none ∧ l.saved = none ∧
            (recNotBefore raw ≤ s.now → (∀ q, q < 4 → bits (recPre raw q) 0 32 = 0) →
              l.elig = some s.now ∧ l.cls = recPrio raw) ∧
            (s.now < recNotBefore raw → l.elig = none)))

/-- R28-R30, R366, R371-R374: the tasks' slots and coordinates, where a launch may be placed, how its lease and its tasks start,
what an expiry does, and a retirement. -/
def Obligations.LeasesStartExpireAndRetire : Prop :=
  (∀ raw, recLevels raw ≠ 0 → (taskSlots raw).Nodup ∧ ∀ slot ∈ taskSlots raw, slot < 64 * clustersOf raw ∧
    (coordsOf raw slot).length = recLevels raw ∧ (∀ k, k < recLevels raw → (coordsOf raw slot).getD k 0 < (levelAt raw k).count) ∧
    (List.zipWith (· * ·) (coordsOf raw slot) ((padLevels (levelsOf raw)).map (·.stride))).sum = slot) ∧
  (∀ (s : State) (l : Launch) (cs : List Nat), choosePlace s l = some cs → cs.length = clustersOf l.raw ∧ cs.Nodup ∧
    (∃ i, cs = ((userClusters (recMask l.raw)).drop i).take (clustersOf l.raw)) ∧
    ∀ q ∈ cs, q < 2048 ∧ q % 512 ≠ 0 ∧ recMask l.raw / 2^(q / 512) % 2 = 1 ∧ ∀ x ∈ s.launches, ∀ y ∈ x.lease, q ∉ y.1) ∧
  (∀ (s : State) (l : Launch), ranked s = [l] → findLaunch s l.asid l.ver = some l →
    let pass (Q : State → Prop) : Prop := Does .placementPass .placementPass s Q
    (choosePlace s l = none → pass fun u => u = s) ∧
    ∀ cs, choosePlace s l = some cs → l.saved = none → pass fun u => ∃ l', findLaunch u l.asid l.ver = some l' ∧
      l'.lease = some (cs, if recSlice l.raw = 0 then none else some (s.now + 1000 * recSlice l.raw)) ∧
      (∀ q ∈ cs, ∀ p, p < 4 → (u.core (4 * q + p)).asid = l.asid) ∧
      ∀ slot ∈ taskSlots l.raw,
        let c := 4 * cs.getD (slot / 64) 0 + slot / 16 % 4
        let t := slot % 16
        ((s.strand c t).hnd = false → TaskStarted (u.strand c t) l slot) ∧
        ((s.strand c t).hnd = true → (c, t, slot, none) ∈ l'.waiting)) ∧
  (∀ (s : State) (asid : BitVec 16) (ver : BitVec 32) (l : Launch) (cs : List Nat) (e : Nat),
    findLaunch s asid ver = some l → l.lease = some (cs, some e) → l.preempting = false →
    let expiry (Q : State → Prop) : Prop := Does .leaseExpiry (.leaseExpiry asid ver) s Q
    let becomes (u : State) (l' : Launch) : Prop := findLaunch u asid ver = some l'
    let renewed := { l with lease := some (cs, some (e + 1000 * recSlice l.raw)) }
    let others : Prop := ∃ x ∈ s.launches, waits x = true ∧ ¬(x.asid = asid ∧ x.ver = ver)
    (¬others → expiry fun u => becomes u renewed ∧ u.due = s.due ∧ SameBytes s u) ∧
    (others → takeFrame s l = none → expiry fun u => becomes u renewed ∧ aget u.events 5 0 = aget s.events 5 0 + 1) ∧
    ∀ f e' pa, others → takeFrame s l = some (f, e', pa) → expiry fun u =>
      becomes u { l with preempting := true, saved := some f, frameAt := (e', pa), savedCores := 0 } ∧
      u.due = s.due ++ cs.flatMap fun q => (List.range 4).map fun p => .preemptArrival (4 * q + p)) ∧
  ∀ (s : State) (asid : BitVec 16) (ver : BitVec 32) (l : Launch), findLaunch s asid ver = some l →
    (∀ x ∈ s.launches, waits x = false) → (l.preempting = false ∨ NoPool s) → Does .retirement (.retirement asid ver) s fun u => LaunchGone s u asid ver ∧
      FilledWith s u (refOf asid (recDone l.raw)) s.stamp.toNat

/-- R380, R395, R396: a pre-empt stops the strands that are between blocks and waits for the others; its grace ends the blocks
that may still be flushed; the context unit writes each core's image and frees the core. -/
def Obligations.PreemptionSavesContexts : Prop :=
  (∀ (s : State) (c t : Nat), t < 16 →
    let d := s.strand c t
    let expires : Word := .ofNat 64 (match launchOn s c with
      | some l => (match l.lease with | some (_, some e) => e | _ => s.timebase.toNat)
      | none => s.timebase.toNat)
    let stops (at_ : Word) (e : Strand) : Prop := e.phase = .stopped ∧ e.tcause = 0x216 ∧ e.tval = expires ∧ e.tblk = at_ ∧
      e.tlsid = 0 ∧ e.ttime = s.timebase &&& 0xFFFFFFFFFF ∧ e.resume = at_ ∧ e.bpc = at_ ∧ e.preempt = none ∧ e.status = d.status ∧
      e.g = d.g ∧ e.v = d.v
    Does .preemptArrival (.preemptArrival c) s fun u => (u.core c).preemptAt = some s.cycle ∧ SameBytes s u ∧
      let e := u.strand c t
      match d.phase with
      | .idle => stops d.bpc e
      | .stopped => e = d
      | .running => e = { d with preempt := some expires }
      | .held _ => stops d.tblk e
      | _ => if d.status.getLsbD 1 then stops d.bpc e else e = { d with preempt := some expires }) ∧
  (∀ (s : State) (c t : Nat), t < 16 →
    let d := s.strand c t
    Does .preemptGraceExpiry (.preemptGraceExpiry c) s fun u => SameBytes s u ∧
      let e := u.strand c t
      (∀ b, d.block = some b → preempted d = true → b.irrev = false →
        e.block = none ∧ e.phase = .stopped ∧ e.resume = d.bpc ∧ e.bpc = d.bpc ∧ e.g = d.g ∧ e.v = d.v) ∧
      ((∀ b, d.block = some b → preempted d = false ∨ b.irrev = true) → e = d)) ∧
  ∀ (s : State) (c : Nat) (l : Launch) (cs : List Nat) (x : Option Nat) (f : Nat),
    launchOn s c = some l → findLaunch s l.asid l.ver = some l → l.lease = some (cs, x) → l.saved = some f → f < 2^16 →
    let save (Q : State → Prop) : Prop := Does .contextSave (.contextSave c) s Q
    let k := placeOf cs c 0
    (save fun u => (∀ t, (u.strand c t).phase = .idle ∧ (u.strand c t).block = none) ∧ (u.core c).preemptAt = none ∧
      (u.core c).mat.queue = [] ∧
      (∃ v ∈ u.saved, v.asid = l.asid ∧ v.frame = f ∧ v.k = k ∧ v.from_ = c) ∧
      (∃ m, .trapMessageAtCollector m ∈ u.due ∧ m.kind = 3 ∧ m.asid = l.asid ∧ m.code.toNat = f ∧ m.row = coreRow c ∧ m.die = coreDie c) ∧
      (l.savedCores + 1 < 4 * cs.length → findLaunch u l.asid l.ver = some { l with savedCores := l.savedCores + 1 }) ∧
      (4 * cs.length ≤ l.savedCores + 1 → .placementPass ∈ u.due ∧ ∃ l', findLaunch u l.asid l.ver = some l' ∧ l'.lease = none ∧
        l'.preempting = false ∧ l'.saved = some f ∧ l'.elig = some (x.getD s.timebase.toNat) ∧ l'.cls = recPrio l.raw)) ∧
    let cmds := (savedOf s l.asid f k c).cmds
    s.migs = [] → NoPool s → (s.core c).msgs = [] → cmds.length ≤ 1024 → k < 8192 → save fun u =>
        let pa := l.frameAt.2 + 0x10000 + k * 0x60000
        (∀ t, t < 16 → numAt 64 u.mem (pa + 0x800 * t + 0x500) = (s.strand c t).bpc ∧
          (∀ i, i < 32 → numAt 64 u.mem (pa + 0x800 * t + 8 * i) = (s.strand c t).g.getD i 0) ∧
          ∀ i, i < 16 → numAt 512 u.mem (pa + 0x800 * t + 0x100 + 64 * i) = (s.strand c t).v.getD i 0) ∧
        (∀ a, a < 0x18000 → memRead u.mem (pa + 0x30000 + a) = memRead (s.core c).loft a) ∧
        (∀ i ∈ coreRegs, numAt 64 u.mem (pa + 0x8000 + 8 * (i - 0x100)) = coreReg (s.core c) i) ∧
        (∀ i x, cmds[i]? = some x → numAt 32 u.mem (pa + 0x10000 + 128 * i) = x.w0 ∧ numAt 32 u.mem (pa + 0x10004 + 128 * i) = x.w1) ∧
        numAt 16 u.mem (l.frameAt.2 + 0x200 + 2 * k) = .ofNat 16 c

/-! ## The host, reset, time and errors -/

/-- R204, R384, R411-R415: what the host reads through the window or as CXL.mem is what memory holds, what it writes memory holds,
a failed access ends in an abort or WERR; a snoop gives the host its line; the control BAR's registers; a publication's code and the
bytes it copies. That ROUTE's nibble 0x7F is left out is log 47, which fault of a publication gives which code log
48, how a failed access ends log 49. -/
def Obligations.HostAccessesAreServed : Prop :=
  (∀ (s : State) (o n : Nat) (d : List Byte),
    let g := windowAddr s o
    let reads (Q : State → Prop) : Prop := Does .windowRead (.windowRead o n) s Q
    let writes (Q : State → Prop) : Prop := Does .windowWrite (.windowWrite o d) s Q
    (reads fun u => SameBytes s u ∧ ∃ x, u.out = s.out ++ [x]) ∧
    (∀ leaf, Mapped s g s.dev.winasid leaf → 0 < n → g.toNat % 128 + n ≤ 128 → leaf.host = false →
      poolVer s (fwd s (mappedAt s g leaf)) = none →
      (leafBad (s.norm g) leaf false false false none = false → poisoned s (mappedAt s g leaf) = false →
        reads fun u => u.out = s.out ++ [.read (memBytes s.mem (fwd s (mappedAt s g leaf)) n)]) ∧
      (leafBad (s.norm g) leaf false false false none = true ∨ poisoned s (mappedAt s g leaf) = true →
        reads fun u => u.out = s.out ++ [.abort])) ∧
    (∀ leaf, Mapped s g s.dev.winasid leaf → d ≠ [] → g.toNat % 128 + d.length ≤ 128 → leaf.host = false →
      poolVer s (fwd s (mappedAt s g leaf)) = none →
      (leafBad (s.norm g) leaf false true false none = false →
        writes fun u => WroteDevice s u (fwd s (mappedAt s g leaf)) (d.map some) ∧ u.dev = s.dev) ∧
      (leafBad (s.norm g) leaf false true false none = true → writes fun u => SameBytes s u ∧ u.dev.werr = true)) ∧
    (d ≠ [] → (fieldsOk g = false ∨ isRemote (s.norm g) = true) → writes fun u => SameBytes s u ∧ u.dev.werr = true)) ∧
  (∀ (s : State) (pa n : Nat) (d : List Byte),
    let access (a : HostMem) (Q : State → Prop) : Prop := Does .cxlMemAccess (.cxlMemAccess a) s Q
    (0 < n → pa % 128 + n ≤ 128 → poolVer s (fwd s pa) = none → access (.load pa n) fun u => SameBytes s u ∧ u.out = s.out ++
      [if inHbm pa ∧ poisoned s pa = false then .read (memBytes s.mem (fwd s pa) n) else .abort]) ∧
    (d ≠ [] → pa % 128 + d.length ≤ 128 → poolVer s (fwd s pa) = none → access (.store pa d) fun u =>
      (inHbm pa = true → WroteDevice s u (fwd s pa) (d.map some)) ∧ (inHbm pa = false → u = s))) ∧
  (∀ (s : State) (line : Nat) (d : List Byte) (l : AgentLine), (s.agent.find? fun x => x.1 == line) = some (line, l) →
    l.d.length = 64 → d.length = 64 →
    Does .hostSnoop (.hostSnoop (.inv line d)) s (fun u => (u.agent.find? fun x => x.1 == line) = none ∧
      ∀ a, memRead u.hostMem a = writtenAt s.hostMem (line * 64) (d.map some) a) ∧
    Does .hostSnoop (.hostSnoop (.data line)) s fun u => (u.agent.find? fun x => x.1 == line) = some (line, { l with st := 1 }) ∧
      ∀ a, memRead u.hostMem a = if l.st = 3 then writtenAt s.hostMem (line * 64) (l.d.map some) a else memRead s.hostMem a) ∧
  (∀ (s : State) (v : Word), let c := bits v 32 13
    (isSup c = false → Gives .extintWrite (.extintWrite v) s s) ∧
    (isSup c = true → Does .extintWrite (.extintWrite v) s fun u => hostRegisterRead u 0x28 = v &&& 0xF1FFFFFFFFF07 ∧
      (u.strand c (bits v 48 4)).ext = aput (s.strand c (bits v 48 4)).ext (bits v 0 3) (v &&& 0xFFFFFF07))) ∧
  (∀ (s : State) (o : Nat) (v : Word), o % 8 = 0 →
    let wrote (x : Word) : Prop := Does .hostRegisterWrite (.hostRegisterWrite o v) s fun u =>
      SameBytes s u ∧ hostRegisterRead u o = x
    let old := hostRegisterRead s o
    let stage4 : Prop := s.dev.stage = 4 ∧ s.dev.fail = false
    (o = 0 → wrote (old &&& ~~~(v &&& 4))) ∧ (o = 8 → wrote (old &&& v)) ∧
    (o = 0x10 → stage4 → bits v 0 7 ≠ 0x7F → wrote (v &&& 0x7F)) ∧ (o = 0x10 ∨ 0x100 ≤ o ∧ o < 0x140 → ¬stage4 → wrote old) ∧
    (o = 0x18 → wrote (0x7F00000000000000 ||| (v &&& 0x00FFFFF000000000))) ∧ (o = 0x20 → wrote (v &&& 0xFFFF)) ∧
    (0x100 ≤ o → o < 0x140 → stage4 → Does .hostRegisterWrite (.hostRegisterWrite o v) s fun u => SameBytes s u ∧
      ∀ j, j < 16 → let n := 16 * ((o - 0x100) / 8) + j
        n ≠ 0x7F → bits (hostRegisterRead u o) (4 * j) 4 = if n = s.sysnum.toNat then 15 else bits v (4 * j) 4) ∧
    (0x1000 ≤ o → o < 0x1020 → bits v 0 16 ≠ 0 → wrote (v &&& 0xFFFF)) ∧
    (0x100000 ≤ o → o < 0x200000 → wrote (if (o - 0x100000) % 128 < 64
      then (v &&& 0xFFFFFF) ||| (old &&& ~~~v &&& 0x1000000) else v &&& 0xFFFFFFFFFFFF)) ∧
    (0x200000 ≤ o → o < 0x400000 → wrote v)) ∧
  (∀ (s : State) (i : Nat),
    let counter (o n : Nat) (x : BitVec 32) : Prop := i < n → (hostRegisterRead s (o + 4 * i)).truncate 32 = x
    counter 0x2000 12 (aget s.events i 0) ∧ counter 0x10000 512 (aget s.errs (2 * 2^16 + i) 0) ∧
    counter 0x11000 96 (aget s.errs (3 * 2^16 + i) 0) ∧ counter 0x12000 4 (aget s.errs (4 * 2^16 + i) 0)) ∧
  (∀ (s : State) (r : Ref) (src : Word) (n : Nat) (leaf : Leaf) (e : Ver), Mapped s src r.asid leaf → 0 < n →
    src.toNat % 128 + n ≤ 128 → leaf.host = false → leafBad (s.norm src) leaf false false false none = false →
    poisoned s (mappedAt s src leaf) = false → poolVer s (fwd s (mappedAt s src leaf)) = none →
    findVer s r = some e → tileHas s r [e] → e.state = .filling → e.proxy = false → e.guard = none → e.fin = false →
    e.closed = false → e.refs ≠ 0 → e.waiters = [] → e.pend = n → e.size = n →
    ∃ u, pubCopy s r src [(0, n)] = (true, u) ∧ ∃ x, findVer u r = some x ∧ x.state = .sealed_ ∧
      ∀ a, a < n → memRead x.bytes a = memRead s.mem (fwd s (mappedAt s src leaf) + a)) ∧
  ∀ (s : State) (d : Vec),
    let f (lo n : Nat) : Nat := d.toNat / 2^lo % 2^n
    let r : Ref := ⟨.ofNat 16 (f 0 16), .ofNat 32 (f 32 32), .ofNat 32 (f 64 32)⟩
    let src : Word := .ofNat 64 (f 128 64)
    let made := createVer s r { size := f 96 28, pend := f 96 28, refs := f 192 12, fmt := .ofNat 4 (f 16 4), pin := false, hbm := false
                                proxy := none, fork := none }
    let ends (code : Nat) (Q : State → Prop) : Prop := Does .publication (.publication d) s fun u =>
      u.dev.pubCount = s.dev.pubCount + 1 ∧ u.dev.pubLast = .ofNat 8 code ∧
      u.out = (if code = 0 then s.out else s.out ++ [.msix 2]) ∧ (∀ a, memRead u.hostMem a = memRead s.hostMem a) ∧
      (∀ c, (u.core c).loft = (s.core c).loft) ∧ Q u
    let like (w : State) (u : State) : Prop := u.slices = w.slices ∧ u.mem = w.mem
    let node := f 184 8
    let bad : Prop := f 20 12 ≠ 0 ∨ 7 < f 16 4 ∨ f 124 4 ≠ 0 ∨ 2^24 < f 96 32 ∨ f 204 308 ≠ 0 ∨
      (node ≠ 0x7F ∧ node ≠ 0xFF ∧ node ≠ s.sysnum.toNat)
    (s.dev.go = false ∨ bad → ends 4 (like s)) ∧
    (s.dev.go = true → ¬bad →
      (∀ k, made = .error k → ends (if k = 0xB then 1 else 2) (like s)) ∧
      ∀ s1, made = .ok s1 →
        (∀ s2, pubCopy s1 r src (hostPieces src.toNat (f 96 28)) = (true, s2) → ends 0 (like s2)) ∧
        ∀ s2, pubCopy s1 r src (hostPieces src.toNat (f 96 28)) = (false, s2) → ends 3 (like (poisonVer s2 r)))

/-- R416-R418: a reset puts every item at its reset value and boots: each stage fails with its code, and after stage 4 the
firmware waits for GO, which ends in READY or in a failure; the firmware answers an attestation. -/
def Obligations.ResetBootsTheModule : Prop :=
  (∀ (s : State) (hbm joints dma : Bool) (a n : Word),
    let image := memBytes s.hostMem a.toNat n.toNat
    let boots (Q : State → Prop) : Prop := Does .fundamentalReset (.fundamentalReset hbm joints dma a n) s Q ∧
      Does .devctlReset (.devctlReset hbm joints dma a n) s Q
    let fails (code stage : Nat) : Prop := boots fun u => u.dev.fail = true ∧ u.dev.code = code ∧ u.dev.stage = stage ∧ u.halted = true ∧
      .msix 0 ∈ u.out ∧ u.cores = [] ∧ u.dev.ready = false
    (boots fun u => u.mem = [] ∧ u.hostMem = s.hostMem ∧ u.migs = [] ∧
      (∀ x, inHbm x = true → poisoned u x = false) ∧ (∀ x, hostBad u x = hostBad s x) ∧ u.tlb = [] ∧ u.slices = [] ∧ u.larder = [] ∧ u.launches = [] ∧
      u.engines = [] ∧ u.ports = [] ∧ u.sysnum = 0x7E ∧ u.routes = [] ∧ u.ldcfg = 0 ∧ u.timebase = 0 ∧ u.events = [] ∧ u.errs = [] ∧
      u.thermal = Thermal.reset ∧ u.due = [] ∧ u.dev.go = false ∧ numAt 64 u.dev.mailbox 0 = a ∧ numAt 64 u.dev.mailbox 8 = n) ∧
    (hbm = false → fails 6 1) ∧ (hbm = true → joints = false → fails 7 1) ∧
    (hbm = true → joints = true → dma = false → fails 1 2) ∧
    (hbm = true → joints = true → dma = true →
      (∀ code, verifyImage image = some code → fails code 3) ∧
      (verifyImage image = none → boots fun u => u.dev.stage = 4 ∧ u.dev.fail = false ∧ u.halted = false ∧
        (∀ c, c < 8192 → (u.core c).trapvec = Config.residentTrapBlock &&& ~~~63 ∧
          (u.core c).htab = (if isSup c then Config.residentHtab &&& ~~~63 else 0)) ∧
        u.dev.digest = .ofNat 512 (leNat (sha512 image)) ∧
        ∀ j, j < Config.certificate.length → memRead u.dev.mailbox (0x2000 + j) = Config.certificate.getD j 0))) ∧
  (∀ (s : State) (ports : List Nat) (host : Option Word),
    let go (Q : State → Prop) : Prop := Does .devctlGo (.devctlGo ports host) s Q
    let stage4 : Prop := s.dev.stage = 4 ∧ s.dev.fail = false
    (¬stage4 → go fun u => u = { s with dev := { s.dev with go := true } }) ∧
    (stage4 → go fun u => u.dev.go = true ∧ (∀ p ∈ ports, p < 12 → (u.port p).st = .up) ∧
      match host with
      | none => u.dev.stage = 5 ∧ u.dev.fail = true ∧ u.dev.code = 8 ∧ u.halted = true ∧ .msix 0 ∈ u.out
      | some t => u.dev.stage = 6 ∧ u.dev.ready = true ∧ u.ptmDone = true ∧ .msix 1 ∈ u.out ∧
        if s.ptmDone then u.timebase = s.timebase ∧ u.ptmOffset = (t - s.timebase).toInt else u.timebase = t)) ∧
  ∀ (s : State),
    let asks (Q : State → Prop) : Prop := Does .attestationRequest .attestationRequest s Q
    (s.dev.stage < 4 ∨ s.dev.fail = true → asks fun u => numAt 64 u.dev.mailbox 0x140 = 1) ∧
    (4 ≤ s.dev.stage → s.dev.fail = false → asks fun u => numAt 64 u.dev.mailbox 0x140 = 2 ∧
      (∀ j, j < 64 → memRead u.dev.mailbox (0x1000 + j) = memRead s.dev.mailbox (0x100 + j)) ∧
      numAt 512 u.dev.mailbox 0x1040 = s.dev.digest ∧ numAt 64 u.dev.mailbox 0x1080 = s.dev.version.zeroExtend 64 ∧
      numAt 64 u.dev.mailbox 0x1088 = Config.serial ∧ numAt 64 u.dev.mailbox 0x1090 = s.timebase)

/-- R189, R236, R400, R407, R409, R410: the first PTM exchange sets TIMEBASE, a later one its offset; sensors, throttling, supply
sag, and what an uncorrectable or a corrected error changes. -/
def Obligations.ClocksSensorsAndErrors : Prop :=
  (∀ (s : State) (h : Word),
    (s.ptmDone = false → Gives .ptmExchange (.ptmExchange (some h)) s
      { s with timebase := h, timeRead := 0, ptmDone := true, ptmFails := 0, ptmAt := s.clock }) ∧
    (s.ptmDone = true → Gives .ptmExchange (.ptmExchange (some h)) s
      { s with ptmOffset := (h - s.timebase).toInt, ptmFails := 0, ptmAt := s.clock }) ∧
    Does .ptmExchange (.ptmExchange none) s fun u => u.timebase = s.timebase ∧ u.ptmFails = s.ptmFails + 1 ∧
      aget u.events 9 0 = aget s.events 9 0 + (if s.ptmFails = 2 then 1 else 0)) ∧
  (∀ (s : State) (die : Nat) (ts : List Int) (i : Nat) (t h : Int), ts[i]? = some t → i < 512 → h ∈ ts → (∀ x ∈ ts, x ≤ h) → 0 ≤ h →
    h < 256 → Does .sensorRefresh (.sensorRefresh die ts) s fun u =>
      ((aget u.thermal.temp die 0).toNat : Int) = h ∧ ((aget u.thermal.cls (die * 512 + i) 0 : Nat) : Int) = max 0 (min 7 ((t - 60) / 5))) ∧
  (∀ (s : State) (die power : Nat), let t := s.thermal
    Does .throttleUpdate (.throttleUpdate die power) s fun u =>
      let tooMuch : Prop := t.plim.toNat < power
      u.thermal.phit = decide tooMuch ∧ (∀ d, d ≠ die → aget u.thermal.lvl d 0 = aget t.lvl d 0) ∧
      aget u.thermal.lvl die 0 =
        if t.en = true ∧ (t.tlim.toNat < (aget t.temp die 0).toNat ∨ tooMuch) then min 6 (aget t.lvl die 0 + 1)
        else if (aget t.temp die 0).toNat + 3 ≤ t.tlim.toNat ∧ 100 * power ≤ 95 * t.plim.toNat then aget t.lvl die 0 - 1
        else aget t.lvl die 0) ∧
  (∀ (s : State) (n : Nat), Does .supplySag (.supplySag n) s fun u => u.thermal.sag = s.thermal.sag + 1 ∧
    aget u.events 10 0 = aget s.events 10 0 + 1) ∧
  ∀ (s : State),
    let strikes (x : ErrAt) (Q : State → Prop) : Prop := Does .uncorrectableError (.uncorrectableError x) s Q
    (∀ pa, strikes (.line pa) fun u => SameBytes s u ∧ poisoned u pa = true ∧
      ∀ a, fwd s a / 128 ≠ fwd s pa / 128 → poisoned u a = poisoned s a) ∧
    (∀ c a, strikes (.loft c a) fun u => SameBytes s u ∧ a ∈ (u.core c).loftPoison) ∧
    (∀ c k, strikes (.l1 c k) fun u => u = s.onCore c fun x => { x with l1 := x.l1.eraseIdx k }) ∧
    (∀ r e, findVer s r = some e → tileHas s r [e] → (e.state = .filling ∨ e.state = .sealed_) → e.grans ≠ 0 → e.refs ≠ 0 →
      strikes (.version r) fun u => (NoPool s → SameBytes s u) ∧ ∃ e', findVer u r = some e' ∧ e'.state = .poisoned) ∧
    (∀ pa, strikes (.host pa) fun u => SameBytes s u ∧ ∀ a, hostBad u a = if a / 64 = pa / 64 then true else hostBad s a) ∧
    (∀ kind k, kind = 3 ∨ kind = 4 → strikes (.link kind k) fun u =>
      let x := aget s.errs (kind * 2^16 + k) 0
      let y := aget u.errs (kind * 2^16 + k) 0
      y.extractLsb' 0 16 = x.extractLsb' 0 16 ∧
      y.extractLsb' 16 16 = if x.extractLsb' 16 16 = 0xFFFF then 0xFFFF else x.extractLsb' 16 16 + 1) ∧
    (∀ k, strikes (.corrected 1 k) fun u => (u.slice k).ue = (s.slice k).ue ∧
      (u.slice k).ce = if (s.slice k).ce = 0xFFFF then 0xFFFF else (s.slice k).ce + 1) ∧
    ∀ kind k, 2 ≤ kind → kind ≤ 4 → strikes (.corrected kind k) fun u =>
      let x := aget s.errs (kind * 2^16 + k) 0
      let y := aget u.errs (kind * 2^16 + k) 0
      y.extractLsb' 16 16 = x.extractLsb' 16 16 ∧
      y.extractLsb' 0 16 = if x.extractLsb' 0 16 = 0xFFFF then 0xFFFF else x.extractLsb' 0 16 + 1

/-! ## Firing, decoding and steps -/

/-- R44, R54: a token sent to a target that is full faults, MULTI_WRITE at a write slot and OPERAND_COLLISION elsewhere, with TVAL
the target; of two in one cycle the lower is reported. -/
def Obligations.SecondArrivalsFault : Prop :=
  ∀ (pr : BitVec 2) (t1 t0 : BitVec 8) (s : State) (b : Block) (sl : Slot) (x : Token), Fires s pr b sl → sl.a = some x →
    let faults (s1 : State) (tg : BitVec 8) : Prop :=
      exec (.mov pr t1 t0) s = .next (raise s1 s.cur.1 s.cur.2.1 (if tg.toNat < 64 then 4 else 5) (tg.zeroExtend 64) none)
    (targetFull b t0 → targetFree b t1 = true → faults (s.fires b fun b => putAt (s.cycle + s.lat) x b t1) t0) ∧
    (targetFull b t1 → targetFree b t0 = true → faults (s.fires b fun b => putAt (s.cycle + s.lat) x b t0) t1) ∧
    (targetFull b t1 → targetFull b t0 → faults (s.fires b id) (if t1.toNat ≤ t0.toNat then t1 else t0)) ∧
    (t1 = t0 → t0 ≠ 0 → targetFree b t0 = true → faults (s.fires b fun b => putAt (s.cycle + s.lat) x b t0) t0)

/-- R15, R42, R47, R55: until its block commits, or its returning atomic issues (R53), no instruction of a block body changes a
register, a byte of memory, an accumulator, a version, or another strand; a fault changes its own strand's trap registers only. -/
def Obligations.FiringChangesNoArchitecturalState : Prop :=
  ∀ (i : Instr) (s : State), isCoded i = true →
    (∀ b p, s.curBlock = some b → b.atomic = some p → p.src.idx = s.cur.2.2 → mayIssue s s.cur.1 b p = false) →
    ∃ u, exec i s = .next u ∧ u.mem = s.mem ∧ u.hostMem = s.hostMem ∧
    (∀ k, u.slice k = { s.slice k with maybe := (u.slice k).maybe }) ∧ u.poison = s.poison ∧ u.thermal = s.thermal ∧
    u.timebase = s.timebase ∧ u.ldcfg = s.ldcfg ∧ u.launches = s.launches ∧ u.engines = s.engines ∧ u.ports = s.ports ∧
    (∀ c, (u.core c).loft = (s.core c).loft ∧ (u.core c).mat = (s.core c).mat ∧ (u.core c).sb = (s.core c).sb ∧
      (u.core c).msgs = (s.core c).msgs ∧ ∀ j, 0x100 ≤ j → j < 0x129 → coreReg (u.core c) j = coreReg (s.core c) j) ∧
    (∀ c t, (c ≠ s.cur.1 ∨ t ≠ s.cur.2.1) → u.strand c t = s.strand c t) ∧
    OnlyItsBlock (s.strand s.cur.1 s.cur.2.1) (u.strand s.cur.1 s.cur.2.1)

/-- R60-R87: words of the spec's examples decode to the instructions that they stand for. -/
def Obligations.SpecWordsDecode : Prop :=
  decode 0x12004341 0 = some (.mov 0 0x43 0x41) ∧ decode 0x44006445 0 = some (.tlti 0 0 0x064 0x45) ∧
  decode 0x0E000141 0 = some (.genc 0 0 1 0x41) ∧ decode 0x16B00020 0 = some (.sel 1 3 0 0x20) ∧
  decode 0x05100000 0 = some (.halt 2 1) ∧ decode 0x0383FFFA 0 = some (.br 3 0 0x3FFFA) ∧
  decode 0x08000000 0 = some (.hret 0 0) ∧ decode 0x0A000000 0 = some (.tret 0 0) ∧
  decode 0xF6000643 0 = some (.sysrd 0 0x006 0x43) ∧ decode 0xFA008000 0 = some (.tlbinv 0 0) ∧
  decode 0xFA002000 5 = some (.wfi 0 5) ∧ decode 0xE0000000 1 = some (.tnew 0 0 0 0 1) ∧
  decode 0xE8000000 0x24 = some (.mcfg 0 0 0x24) ∧ decode 0xEC080100 0x1000 = some (.xcopyExp 0 2 0x1000) ∧
  decode 0xF2002000 0x100 = some (.xget 0 0 0x100) ∧ decode 0xF4008100 0x77 = some (.sbld 0 0 1 0x77)

/-- R7, R60-R87: encoding and decoding agree: every well-formed instruction of a block body decodes from its words, and a word
that decodes is the instruction's word. -/
def Obligations.EncodingRoundTrip : Prop :=
  (∀ (i : Instr) (x : Word32), isCoded i = true → i.wf = true →
    decode ((encode i).getD 0 0) ((encode i).getD 1 x) = some i) ∧
  ∀ (i : Instr) (w x : Word32), decode w x = some i → encode i = [w] ∨ encode i = [w, x]

/-- The turn at the head of the agenda, or what the model picks where it is empty, first lets its cycles and its time pass, each cycle
once the ports have issued what they pick in it; it then issues the instruction that the slot's words decode to, where its port picks
it, brings the step that it names, or has a command perform a part; a unit that the module does not have stops the machine (the
model's own agenda: log entry 2; what has happened in a cycle: log entry 61; what issues twice is counted once: log entry 7). R376:
of the strands after the last that a port issued from, in ascending order modulo 16, the first with a ready instruction issues its
lowest. -/
def Obligations.StepRunsTheDecodedInstruction : Prop :=
  ∀ (s : State),
    let u := s.agenda.headD ⟨1, 1, .auto⟩
    let s1 := { s with agenda := s.agenda.tail }
    let runs (s1 : State) (c t i lat : Nat) : Prop :=
      ∀ b sl x, (s1.strand c t).block = some b → b.slots[i]? = some sl → decode sl.word (argOf b i) = some x →
        (readyAt b i = false → step s = exec x { s1 with lat := lat, cur := (c, t, i) }) ∧
        (readyAt b i = true →
          let s2 := issued { s1 with lat := lat } c t i b
          let b2 := { b with counted := if b.counted.contains i then b.counted else i :: b.counted }
          step s = exec x s2 ∧ s2.cur = (c, t, i) ∧ s2.lat = lat ∧ s2.curBlock = some b2 ∧ SameBytes s1 s2 ∧ s2.due = s1.due ∧
          s2.strand c t = { s1.strand c t with yielding := (s2.strand c t).yielding, block := some b2 } ∧
          ∀ k v, (k ≠ c ∨ v ≠ t) → s2.strand k v = { s1.strand k v with yielding := (s2.strand k v).yielding })
    let waits : Prop := u.cycles ≠ 0 ∨ u.ns ≠ 0
    let first : Option (Nat × Nat × Nat) :=
      if u.cycles ≠ 0 ∨ u.ns = 0 ∧ mustFollow s u.who = true then owed s else none
    (∀ c t i, first = some (c, t, i) → runs s c t i 0 ∧ ∃ mem, portPick s c mem = some (t, i)) ∧
    (owed s = none → ∀ x ∈ s.cores, ∀ mem, portPick s x.1 mem = none) ∧
    (waits → first = none →
      (∀ p s', timed s = some (p, s') → step s = exec (stepOf p) { s' with packet := p, lat := 0 }) ∧
      (timed s = none → ∃ n ns, n ≤ u.cycles ∧ ns ≤ u.ns ∧ (n ≠ 0 ∨ ns ≠ 0) ∧ (portsStill s = false → n ≤ 1) ∧
        (∀ die, die < 4 → s.clock + ns ≤ aget s.lvlAt die 0 + 10000) ∧
        let s2 := tick { s1 with agenda := ⟨u.cycles - n, u.ns - ns, u.who⟩ :: s1.agenda } n ns
        step s = .next s2 ∧ SameBytes s s2 ∧ s2.due = s.due ∧ s2.cycle = s.cycle + n ∧ s2.clock = s.clock + ns ∧
        (s.ptmOffset = 0 → s2.timebase = s.timebase + .ofNat 64 ns) ∧
        ∀ c t, let d := s.strand c t
          let e := s2.strand c t
          e.g = d.g ∧ e.v = d.v ∧ e.bpc = d.bpc ∧ e.status = d.status ∧ e.phase = d.phase ∧
          e.cycles = (if s.halted = false ∧ (d.live = true ∨ d.hnd = true) then d.cycles + .ofNat 64 n else d.cycles) ∧
          e.block = if s.halted then d.block else d.block.map fun b => if b.waits.isEmpty then { b with watch := b.watch + n } else b)) ∧
    (¬waits → first = none →
      let who : Option Who := if u.who = .auto then pick s1 else some u.who
      (who = none → step s = .next s1) ∧
      (∀ c t i lat, u.who = .issue c t i lat →
        (8192 ≤ c ∨ 16 ≤ t ∨ 64 ≤ i → step s = .fault .noSuchUnit) ∧
        ∀ b, c < 8192 → t < 16 → i < 64 → (s1.strand c t).block = some b →
          (portPick s1 c (memPort b i) ≠ some (t, i) → step s = .next s1) ∧
          (portPick s1 c (memPort b i) = some (t, i) → runs s1 c t i lat)) ∧
      (∀ p, who = some (.event p) →
        (unitsOk p = false → step s = .fault .noSuchUnit) ∧
        (unitsOk p = true → inOrder s1 p = false → step s = .next s1) ∧
        (unitsOk p = true → inOrder s1 p = true → isDue s1 p = true → arrivable s1 p = true →
          step s = exec (stepOf p) (noted { s1 with due := s1.due.erase p, packet := p, lat := 0 } p)) ∧
        (unitsOk p = true → inOrder s1 p = true → (isDue s1 p && arrivable s1 p) = false →
          step s = if condition s1 p then exec (stepOf p) (noted { s1 with packet := p, lat := 0 } p) else .next s1)) ∧
      ∀ kind k id n, who = some (.progress kind k id n) →
        let may : Bool := mayProgress s1 kind k id n
        (kind = 0 → step s = if 32 ≤ k then .fault .noSuchUnit else
          .next (if may && partInOrder s1 2 2 then engPart (partNoted s1 2 2) k id n else s1)) ∧
        (kind = 1 → step s = if 8192 ≤ k then .fault .noSuchUnit else
          .next (if !s.halted && may && partInOrder s1 3 0 then matPart (partNoted s1 3 0) k id n else s1)) ∧
        (kind = 2 → step s = if 12 ≤ k then .fault .noSuchUnit else
          .next (if may && partInOrder s1 2 1 then linkPart (partNoted s1 2 1) k id n else s1)) ∧
        (kind = 3 → step s = .next (if s.builds.any fun b => b.start.isSome then grantNext s1 else s1)) ∧
        (4 ≤ kind → step s = .fault .noSuchUnit)) ∧
    ∀ c mem t i, portPick s c mem = some (t, i) →
      let p := if mem then (s.core c).portM else (s.core c).portA
      let place (u : Nat) : Nat := (u + 15 - p % 16) % 16
      s.halted = false ∧ throttled s c = false ∧ t < 16 ∧ ∃ b, (s.strand c t).block = some b ∧ (s.strand c t).yielding = none ∧
        memPort b i = mem ∧ wouldFire s c t b i = true ∧
        (∀ j ∈ b.instrs, j.1 < i → memPort b j.1 = mem → wouldFire s c t b j.1 = false) ∧
        ∀ u v, u < 16 → place u < place t → (s.strand c u).block = some v → (s.strand c u).yielding = none →
          ∀ j ∈ v.instrs, memPort v j.1 = mem → wouldFire s c u v j.1 = false

/-- R97, R99, R177, R184, R188, R297, R331, R335, R342, R361, R362, R400, R404, R407, R409, R410, R413: what reset leaves where
the spec states it; the memories are in canonical form. -/
def Obligations.ResetLeavesTheStatedValues : Prop :=
  memoriesWf State.reset = true ∧
  (∀ a, memRead State.reset.mem a = 0) ∧ (∀ c a, memRead (State.reset.core c).loft a = 0) ∧
  (∀ c, let k := State.reset.core c
    (∀ j, 0x100 ≤ j → j < 0x129 → j ≠ 0x121 → j ≠ 0x126 → coreReg k j = 0) ∧ coreReg k 0x121 = 0x18000 ∧
    k.l1 = [] ∧ k.sb = [] ∧ k.msgs = [] ∧ k.mat.acc = [] ∧ k.mat.queue = [] ∧ k.mat.active.cls = 2 ∧ k.mat.shadow.cls = 2 ∧
    (∀ d, k.chan d = Chan.reset) ∧ ∀ j, j < 8 → k.pctl.getD j 0 = 0xFFFF00 ∧ k.pcnt.getD j 0 = 0) ∧
  (∀ c t, let d := State.reset.strand c t
    d.status = (if isSup c then 3 else 2) ∧ d.tcause = 0 ∧ d.tval = 0 ∧ d.tblk = 0 ∧ d.tlsid = 0 ∧ d.ttime = 0 ∧ d.nflag = 0 ∧
    d.fpmode = 0 ∧ d.cycles = 0 ∧ d.blocks = 0 ∧ d.hnd = false ∧ d.rbpc = none ∧ d.live = false) ∧
  (∀ k, let x := State.reset.slice k
    x.tile = 0 ∧ x.flush = 0 ∧ x.ce = 0 ∧ x.ue = 0 ∧ x.vers = [] ∧ x.tiles = []) ∧
  (∀ e, State.reset.engine e = []) ∧ (∀ p, (State.reset.port p).st = .down ∧ (State.reset.port p).cmds = []) ∧
  (∀ a, nextlOf State.reset a = 1) ∧ (∀ k, State.reset.threshold k = 64) ∧ (∀ n, aget State.reset.routes n 15 = 15) ∧
  State.reset.sysnum = 0x7E ∧ State.reset.timebase = 0 ∧ State.reset.ldcfg = 0 ∧ thrmlim State.reset.thermal = 0x0A28015F ∧
  thrmrank State.reset.thermal = 0xB ∧ hostRegisterRead State.reset 0x18 = 0x7F00000000000000 ∧ hostRegisterRead State.reset 0x20 = 0 ∧
  hostRegisterRead State.reset 0x30 = 0

/-- R174, R186: every step keeps device memory and host memory in their one canonical form. -/
def Obligations.StepsKeepMemoryCanonical : Prop :=
  ∀ (s t : State), memoriesWf s = true → step s = .next t → memoriesWf t = true

/-- R130, R142, R202, R236, R300, R303, R310, R312, R314, R324-R327, R343, R351, R353-R355: every step that is no instruction of a block
body completes; a running command's parts move the bytes that its rule says: an engine's pieces, which cover what it moves, are read
and written, in no order but that of an XSCAT's equal bytes; an MLDS and an MSTR read their rows, an MDRN writes its own; an XPUT's
units leave in WRITE flits, its Kiln's codes, scale and residuals among them, and an XGET's bytes are written here. -/
def Obligations.CommandPartsMoveBytes : Prop :=
  (∀ (i : Instr) (s : State), isCoded i = false → ∃ u, exec i s = .next u) ∧
  (∀ c : Cmd, let f := engForm c
    let total := if f.fn = 0 ∧ f.exp = true then f.n * expWidth (endpoint c.a).lane2 else if f.fn = 0 ∨ f.fn = 3 then f.n else f.n * f.es
    f.fn ≤ 3 →
    (∀ n j, let p := engPiece c n
      n < engParts c → j < p.2.2 →
      if f.fn = 0 ∨ f.fn = 3 then p.1 = p.2.1 ∧ p.2.1 + j < total
      else ∃ k b, k < f.n ∧ b < f.es ∧ (if f.fn = 1
        then p.1 + j = engIdx c k * idxStride (endpoint c.a).lane2 + b ∧ p.2.1 + j = k * f.es + b
        else p.1 + j = k * f.es + b ∧ p.2.1 + j = engIdx c k * idxStride (endpoint c.b).lane2 + b)) ∧
    (∀ m, m < total → ∃ n, n < engParts c ∧ let p := engPiece c n
      if f.fn = 2 then p.1 ≤ m ∧ m < p.1 + p.2.2 else p.2.1 ≤ m ∧ m < p.2.1 + p.2.2) ∧
    ∀ n, if f.fn = 2 then (engMayWrite c n = true ↔ ∀ m, m < n → m ∈ c.wrote ∨
        (engPiece c m).2.1 + (engPiece c m).2.2 ≤ (engPiece c n).2.1 ∨ (engPiece c n).2.1 + (engPiece c n).2.2 ≤ (engPiece c m).2.1)
      else engMayWrite c n = true) ∧
  (∀ (s : State) (e id n : Nat) (c : Cmd), findCmd s 0 e id = some c →
    let f := engForm c
    let x := endpoint c.a
    let so := (engPiece c n).1
    let d := (engPiece c n).2.1
    let z := (engPiece c n).2.2
    let u := engPart s e id n
    let read (b : List Byte) : Prop := SameBytes s u ∧ findCmd u 0 e id = some { c with got := aput c.got n b }
    ((c.got.any fun y => y.1 == n) = false →
      (f.fn = 3 → read ((List.range z).map fun j => .ofNat 8 (bits (v64 c.a 0) (8 * ((d + j) % 8)) 8))) ∧
      (f.fn ≠ 3 → f.exp = false → ∀ b, EndHolds s c x so z b → read b) ∧
      (f.fn = 0 → f.exp = true → z ≠ 0 → bits x.lane2 5 2 ≠ 3 → ∀ v, findVer s (refOf c.asid x.a) = some v → v.state = .sealed_ →
        let w := expWidth x.lane2
        let byte (j : Nat) : Nat := (if v.proxy then c.buf.getD j 0 else memRead v.bytes j).toNat
        let luts : Core := { s.core c.src.core with lut4a := c.luta, lut4b := c.lutb }
        ∃ b, read b ∧ b.length = z ∧ ∀ m, m < z →
          b.getD m 0 = (expElem luts x.lane2 v.fmt.toNat byte (x.off + (so + m) / w)).getD ((so + m) % w) 0)) ∧
    ∀ b, c.got.find? (fun y => y.1 == n) = some (n, b) → b.length = z → n ∉ c.wrote →
      (engMayWrite c n = false → u = s) ∧
      (engMayWrite c n = true → b ≠ [] → EndTakes s c (endpoint c.b) d b → EndTook s u c (endpoint c.b) d b ∧
        findCmd u 0 e id = some { c with parts := c.parts + 1, wrote := n :: c.wrote })) ∧
  (∀ (k : Core) (p : Word) (byte : Nat → Nat) (e : Nat), (∀ j, byte j < 256) →
    let nel := bits p 32 28
    let out (v : Ex) : List Byte := if bits p 5 2 = 0 then leBytes (rndCode bf16 0 v) 2 else leBytes (rndCode f32 0 v) 4
    let half := (nel * 4 + 1023) / 1024 * 128
    let full := (nel * 8 + 1023) / 1024 * 128
    let nib := byte (e / 2) / 16^(e % 2) % 16
    let group := if p.getLsbD 4 then e % 2^(bits p 0 4) else e / 2^(bits p 0 4)
    let sigma := leNat ((List.range 4).map fun j => .ofNat 8 (byte (half + 4 * group + j)))
    (bits p 5 2 ≠ 2 → expElem k p 3 byte e = out (mxVal e2m1 (byte (half + e / 32)) nib) ∧
      expElem k p 4 byte e = out (mxVal e4m3 (byte (full + e / 32)) (byte e)) ∧
      expElem k p 5 byte e = out (mxVal e5m2 (byte (full + e / 32)) (byte e)) ∧
      expElem k p 6 byte e = out (exMul (exInt (lutEnt k nib)) (decodeF f32 sigma)) ∧
      expElem k p 7 byte e = out (decodeF (b8Desc (bits p 7 5)) (byte e))) ∧
    (bits p 5 2 = 2 → expElem k p 6 byte e = leBytes (wrapN (lutEnt k nib) 8) 1)) ∧
  (∀ (s : State) (core id n : Nat) (c : Cmd), findCmd s 1 core id = some c →
    let d := matDesc c.a
    let p := matPartsPerRow c
    let i := n / p
    let u := matPart s core id n
    let took (b : List Byte) : Prop := findCmd u 1 core id = some { c with got := aput c.got n b }
    (cmdFn c ≠ 5 →
      let o := n % p * 16
      let z := min 16 (matRow c - o)
      let a := c.at_ + i * d.stride + o
      (d.dk = 2 → took ((c.buf.drop (i * d.stride + o)).take z) ∧ SameBytes s u) ∧
      (d.dk ≠ 2 → a + z ≤ 0x18000 → (∀ x ∈ (s.core core).loftPoison, ¬(a ≤ x ∧ x < a + z)) →
        (d.dk = 0 → c.user = true → c.base ≤ a ∧ a + z ≤ c.limit) →
        took (memBytes (s.core core).loft a z) ∧ SameBytes s u)) ∧
    (cmdFn c = 5 → d.first + i < 128 →
      let ofmt := wf c.w0 8 3
      let code (x : BitVec 32) : Nat :=
        let v := decodeF f32 x.toNat
        let inf := wf c.w0 11 1 == 1
        match ofmt with
        | 0 => x.toNat
        | 1 => convCode bf16 0 inf v
        | 2 => convCode f16 0 inf v
        | 3 => convCode e4m3 0 inf v
        | 4 => convCode e5m2 0 inf v
        | _ => wrapN (exToInt 0 (-128) 127 v) 8
      let row := (List.range 64).flatMap fun j =>
        leBytes (code (accAt (s.core core).mat (d.first + i) j)) (if ofmt = 0 then 4 else if ofmt < 3 then 2 else 1)
      let dest : Endpoint := ⟨if d.dk = 1 then 3 else 2, d.a, core, d.off, 0, 0, 0⟩
      (d.dk = 0 → took [] ∧
        WroteLoft s u core (d.a.toNat + i * d.stride + n % p * 16) (((row.drop (n % p * 16)).take 16).map some)) ∧
      (d.dk = 1 ∨ d.dk = 2 → EndTakes s c dest (i * d.stride) row → took [] ∧ EndTook s u c dest (i * d.stride) row))) ∧
  (∀ (ofmt : Nat) (bf : Bool) (g e : List Ex), g.length = e.length →
    let k := kilnBlock ofmt bf g e
    let f := kilnFmt ofmt
    let cs := List.zipWith (fun g e => rnd f32 0 (exAdd false g e)) g e
    let q := mxQuant f (if ofmt = 3 then 2 else if ofmt = 4 then 8 else 15) cs
    let keeps (x : Ex) : Ex := if bf then rnd bf16 0 x else x
    let bad : Prop := ∃ c ∈ cs, ∀ n m x, c ≠ .num n m x
    k.1 = q.1 ∧ k.2.1 = q.2 ∧ (k.2.2.2 = true ↔ bad) ∧ k.2.2.1.length = g.length ∧
    ∀ j c x, cs[j]? = some c → e[j]? = some x → ∃ y, k.2.2.1[j]? = some (keeps y) ∧
      (bad → y = x) ∧ (¬bad → cs.all exIsZero = true → y = c) ∧
      (¬bad → cs.all exIsZero = false → y = rnd f32 0 (exAdd false c (exNeg (mxVal f q.1 (q.2.getD j 0)))))) ∧
  ∀ (s : State) (p id n : Nat) (c : Cmd), findCmd s 2 p id = some c →
    let f := linkForm c
    let d := linkRem c
    let u := linkPart s p id n
    let flit (w : WDest) (b : List Byte) (last : Bool) : Flit := .write d.node c.tag w c.user (b.map some) last
    let fin : Bool := c.parts + 1 == linkParts c
    let ref := refOf c.asid d.a
    (f.get = true → let o := (getPiece c n).1
      let b := (c.buf.drop o).take (getPiece c n).2
      b ≠ [] → EndTakes s c (endpoint c.b) o b → EndTook s u c (endpoint c.b) o b ∧
        findCmd u 2 p id = some { c with parts := c.parts + 1, wrote := n :: c.wrote }) ∧
    (f.get = true → ∀ m, m < f.n → ∃ n, n < linkParts c ∧ (getPiece c n).1 ≤ m ∧ m < (getPiece c n).1 + (getPiece c n).2) ∧
    (f.get = false → linkUnits c ≤ c.parts →
      u.sent = s.sent ++ [flit (.guardWord (refOf c.asid d.guard) (8 * d.rank)) (leBytes (if c.nf then 1 else 0) 8) true] ∧
      findCmd u 2 p id = some { c with parts := c.parts + 1, unacked := c.unacked + 1 }) ∧
    (f.get = false → f.efq = false → c.parts < linkUnits c → ∀ b, let o := 64 * c.parts
      let z := min 64 (linkBytes f - o)
      EndHolds s c (endpoint c.a) o z b → ((endpoint c.a).kind = 0 → (endpoint c.a).pos o % 64 + z ≤ 64) →
      u.sent = s.sent ++ [flit (if f.fold then .contrib ref d.staging d.rank d.nr (d.off + o / (if f.ifmt = 1 then 4 else 2)) f.ifmt
        else if d.dk = 0 then .addr c.asid (d.a + .ofNat 64 (d.off + o)) else .fill ref (d.off + o) none) b fin] ∧
      findCmd u 2 p id = some { c with parts := c.parts + 1, unacked := c.unacked + 1 }) ∧
    (f.get = false → f.efq = true → c.parts < linkUnits c →
      let r := residOf c.a
      let i := 32 * c.parts
      let rin := refOf c.asid r.rin
      let out := refOf c.asid r.out
      ∀ gb v w, (endpoint c.a).kind = 2 → EndHolds s c (endpoint c.a) (i * ifWidth f) (32 * ifWidth f) gb → findVer s rin = some v →
        v.state = .sealed_ → v.proxy = false → v.refs ≠ 0 → r.off + (i + 32) * r.width ≤ v.size → findVer s out = some w →
        w.state = .filling → w.proxy = false → w.closed = false → (i + 32) * r.width ≤ w.size →
        (tileHas s out [v, w] ∨ tileHas s out [w, v]) →
        let block := kilnBlock f.ofmt r.bf16 (exElems (if f.ifmt = 1 then f32 else bf16) gb)
          (exElems (if r.bf16 then bf16 else f32) (memBytes v.bytes (r.off + i * r.width) (32 * r.width)))
        let codes := codeBytes f.ofmt block.2.1
        let scale : List Byte := [.ofNat 8 block.1]
        let rest := writtenAt w.bytes (i * r.width) ((block.2.2.1.flatMap fun x =>
          if r.bf16 then leBytes (rndCode bf16 0 x) 2 else leBytes (rndCode f32 0 x) 4).map some)
        let nf := c.nf || block.2.2.2
        let sends : Prop := u.sent = s.sent ++ (if f.fold then
            [flit (.contrib ref d.staging d.rank d.nr (d.off + i) (f.ofmt - 1)) (codes ++ scale) fin]
          else [flit (.fill ref ((d.off + i) * fmtBits f.ofmt / 8) (some (.ofNat 4 f.ofmt))) codes false,
            flit (.fill ref (sizeE d.dnel f.ofmt + (d.off + i) / 32) (some (.ofNat 4 f.ofmt))) scale fin]) ∧
          ∃ x, findCmd u 2 p id = some x ∧ x.parts = c.parts + 1 ∧ x.nf = nf
        let last : Prop := c.parts + 1 = linkUnits c
        (¬(nf = true ∧ last) → 32 * r.width < w.pend → sends ∧ FillingAs u out w.size (w.pend - 32 * r.width) w.fmt rest) ∧
        (w.pend = 32 * r.width → w.guard = none → w.fin = false → w.refs ≠ 0 → w.waiters = [] → last → sends ∧
          ∃ x, findVer u out = some x ∧
            if nf then x.state = .aliased ∧ x.aver = rin.ver ∧ x.size = v.size ∧ x.gskip = true
            else x.state = .sealed_ ∧ ∀ a, memRead x.bytes a = rest a))
end

