-- ==== Sys2Proof/Laws/Tables.lean ====
section
/-! SUPPORT. Laws of sparse tables and of memory: reads after writes, and the canonical form that every memory operation
keeps. -/

namespace Sys2Proof.Machine

/-! ## Sparse tables -/

@[simp] theorem aget_nil {α : Type} (k : Nat) (d : α) : aget [] k d = d := rfl

@[simp] theorem aget_aput_self {α : Type} (m : AMap α) (k : Nat) (v d : α) : aget (aput m k v) k d = v := by
  induction m with
  | nil => simp [aput, aget]
  | cons e r ih =>
    obtain ⟨j, w⟩ := e
    simp only [aput]
    split
    · simp [aget]
    · split
      · simp [aget]
      · simp [aget, *]

theorem aget_aput_other {α : Type} (m : AMap α) (k l : Nat) (v d : α) (h : l ≠ k) : aget (aput m k v) l d = aget m l d := by
  induction m with
  | nil => simp [aput, aget, Ne.symm h]
  | cons e r ih =>
    obtain ⟨j, w⟩ := e
    simp only [aput]
    split
    · simp [aget, Ne.symm h]
    · split
      · subst_vars; simp [aget, Ne.symm h]
      · simp [aget, ih]

@[simp] theorem aput_aput {α : Type} (m : AMap α) (k : Nat) (v w : α) : aput (aput m k v) k w = aput m k w := by
  induction m with
  | nil => simp [aput]
  | cons e r ih =>
    obtain ⟨j, u⟩ := e
    simp only [aput]
    split
    · simp [aput]
    · split
      · simp [aput]
      · simp [aput, *]

/-! ## Memory: reads after writes -/

theorem memRead_memSet (m : Mem) (a i : Nat) (b : Byte) :
    memRead (memSet m a b) i = if i = a then b else memRead m i := by
  induction m with
  | nil => simp [memSet, memRead, eq_comm]
  | cons e r ih =>
    obtain ⟨x, c⟩ := e
    by_cases hi : i = a
    · subst hi
      by_cases h1 : i < x
      · simp [memSet, h1, memRead]
      · by_cases h2 : i = x
        · simp [memSet, h2, memRead]
        · simp [memSet, h1, h2, memRead, Ne.symm h2, ih]
    · by_cases h1 : a < x
      · simp [memSet, h1, memRead, hi, Ne.symm hi]
      · by_cases h2 : a = x
        · subst h2; simp [memSet, memRead, hi, Ne.symm hi]
        · simp [memSet, h1, h2, memRead, hi, ih]

theorem memRead_drop (m : Mem) (a i : Nat) :
    memRead (m.filter fun e => e.1 != a) i = if i = a then 0 else memRead m i := by
  induction m with
  | nil => simp [memRead]
  | cons e r ih =>
    obtain ⟨x, c⟩ := e
    by_cases hx : x = a
    · subst hx
      simp only [List.filter_cons, bne_self_eq_false, Bool.false_eq_true, if_false, ih, memRead]
      by_cases hi : i = x <;> simp [hi, eq_comm]
    · have hb : (x != a) = true := by simpa using hx
      simp only [List.filter_cons, hb, if_true, memRead, ih]
      by_cases hi : x = i
      · subst hi; simp [hx]
      · simp [hi]

/-- A read after a write of one byte. -/
theorem memRead_memPut (m : Mem) (a i : Nat) (b : Byte) :
    memRead (memPut m a b) i = if i = a then b else memRead m i := by
  unfold memPut
  split
  · next h => rw [memRead_drop, h]
  · exact memRead_memSet m a i b

/-- A read after a write of a range. -/
theorem memRead_memPutAll (d : List (Option Byte)) (m : Mem) (a i : Nat) :
    memRead (memPutAll m a d) i =
      match if a ≤ i then d[i - a]? else none with
      | some (some x) => x
      | _ => memRead m i := by
  induction d generalizing m a with
  | nil => by_cases h1 : a ≤ i <;> simp [memPutAll, h1]
  | cons x xs ih =>
    have step (m' : Mem) (hne : i ≠ a → memRead m' i = memRead m i) (heq : i = a → memRead m' i = x.getD (memRead m i)) :
        memRead (memPutAll m' (a + 1) xs) i =
          match if a ≤ i then (x :: xs)[i - a]? else none with
          | some (some y) => y
          | _ => memRead m i := by
      rw [ih m' (a + 1)]
      by_cases h1 : i < a
      · have h2 : ¬ a + 1 ≤ i := by omega
        have h3 : ¬ a ≤ i := by omega
        simp [h2, h3, hne (by omega)]
      · by_cases h2 : i = a
        · subst h2
          simp only [show ¬ i + 1 ≤ i by omega, if_false, heq rfl, Nat.le_refl, if_true, Nat.sub_self, List.getElem?_cons_zero]
          cases x <;> rfl
        · have h3 : a + 1 ≤ i := by omega
          have h4 : a ≤ i := by omega
          have h5 : i - a = (i - (a + 1)) + 1 := by omega
          simp [h3, h4, h5, hne h2]
    cases x with
    | none => exact step m (fun _ => rfl) (fun _ => rfl)
    | some b => exact step (memPut m a b) (fun hi => by simp [memRead_memPut, hi]) (fun hi => by simp [memRead_memPut, hi])

/-! ## Memory: the canonical form -/

/-- Every address of a list lies above `n`. -/
def above (n : Nat) (m : Mem) : Bool := match m with | [] => true | e :: _ => n < e.1

theorem wf_cons (x : Nat) (c : Byte) (m : Mem) :
    Memory.wf ((x, c) :: m) = (c != 0 && above x m && Memory.wf m) := by
  cases m with
  | nil => simp [Memory.wf, above]
  | cons e r => obtain ⟨y, d⟩ := e; simp [Memory.wf, above]

theorem wf_tail (m : Mem) (e : Host.Cell) (h : Memory.wf (e :: m) = true) : Memory.wf m = true := by
  obtain ⟨x, c⟩ := e
  rw [wf_cons, Bool.and_eq_true] at h
  exact h.2

/-- A memory filtered by address keeps the canonical form. -/
theorem wf_filter (p : Host.Cell → Bool) (m : Mem) (h : Memory.wf m = true) : Memory.wf (m.filter p) = true := by
  have key : ∀ (m : Mem) (n : Nat), Memory.wf m = true → above n m = true →
      above n (m.filter p) = true ∧ Memory.wf (m.filter p) = true := by
    intro m
    induction m with
    | nil => intro n _ _; exact ⟨rfl, rfl⟩
    | cons e r ih =>
      intro n hw hn
      obtain ⟨x, c⟩ := e
      have hc := hw
      rw [wf_cons] at hc
      simp only [Bool.and_eq_true] at hc
      have hx : n < x := by simpa [above] using hn
      by_cases hp : p (x, c) = true
      · have hr := ih x (wf_tail r (x, c) hw) hc.1.2
        refine ⟨by simp [hp, above, hx], ?_⟩
        simp [hp, wf_cons, (by simpa using hc.1.1 : ¬c = 0#8), hr.1, hr.2]
      · have hr : above n r = true := by
          cases r with
          | nil => rfl
          | cons f r' =>
            have h3 := hc.1.2
            simp only [above, decide_eq_true_eq] at h3 ⊢; omega
        simpa [List.filter_cons, hp] using ih n (wf_tail r (x, c) hw) hr
  cases m with
  | nil => rfl
  | cons e r =>
    obtain ⟨x, c⟩ := e
    by_cases hp : p (x, c) = true
    · have hc := h
      rw [wf_cons] at hc
      simp only [Bool.and_eq_true] at hc
      have hr := key r x (wf_tail r (x, c) h) hc.1.2
      simp [hp, wf_cons, (by simpa using hc.1.1 : ¬c = 0#8), hr.1, hr.2]
    · have hc := h
      rw [wf_cons] at hc
      simp only [Bool.and_eq_true] at hc
      simpa [List.filter_cons, hp] using (key r x (wf_tail r (x, c) h) hc.1.2).2

theorem above_memSet (m : Mem) (n a : Nat) (b : Byte) (h : above n m = true) (ha : n < a) : above n (memSet m a b) = true := by
  cases m with
  | nil => simp [memSet, above, ha]
  | cons e r =>
    obtain ⟨x, c⟩ := e
    have hx : n < x := by simpa [above] using h
    simp only [memSet]
    (repeat' split) <;> simp [above, ha, hx]

theorem wf_memSet (m : Mem) (a : Nat) (b : Byte) (hb : b ≠ 0) (h : Memory.wf m = true) : Memory.wf (memSet m a b) = true := by
  have hb' : ¬b = 0#8 := hb
  induction m with
  | nil => simp [memSet, wf_cons, above, hb', Memory.wf]
  | cons e r ih =>
    obtain ⟨x, c⟩ := e
    have hc := h
    rw [wf_cons, Bool.and_eq_true, Bool.and_eq_true] at hc
    simp only [memSet]
    split
    · next h1 => rw [wf_cons]; simp [hb', above, h1, h]
    · split
      · next h2 => subst h2; rw [wf_cons]; simp [hb', hc.1.2, hc.2]
      · next h1 h2 => rw [wf_cons]; simp [(by simpa using hc.1.1 : ¬c = 0#8), above_memSet r x a b hc.1.2 (by omega), ih hc.2]

/-- A write keeps the canonical form. -/
theorem wf_memPut (m : Mem) (a : Nat) (b : Byte) (h : Memory.wf m = true) : Memory.wf (memPut m a b) = true := by
  unfold memPut
  split
  · exact wf_filter _ m h
  · next hb => exact wf_memSet m a b hb h

/-- Writing a range keeps the canonical form. -/
theorem wf_memPutAll (d : List (Option Byte)) (m : Mem) (a : Nat) (h : Memory.wf m = true) :
    Memory.wf (memPutAll m a d) = true := by
  induction d generalizing m a with
  | nil => exact h
  | cons x xs ih =>
    cases x with
    | none => exact ih m (a + 1) h
    | some b => exact ih _ (a + 1) (wf_memPut m a b h)

/-- Clearing a range keeps the canonical form. -/
theorem wf_memClear (m : Mem) (a n : Nat) (h : Memory.wf m = true) : Memory.wf (memClear m a n) = true := wf_filter _ m h

/-- A cleared byte reads 0, every other byte as before. -/
theorem memRead_memClear (m : Mem) (a n i : Nat) :
    memRead (memClear m a n) i = if a ≤ i ∧ i < a + n then 0 else memRead m i := by
  induction m with
  | nil => simp [memClear, memRead]
  | cons e r ih =>
    obtain ⟨x, c⟩ := e
    simp only [memClear] at ih ⊢
    by_cases hx : x < a ∨ a + n ≤ x
    · simp only [List.filter_cons, decide_eq_true_eq, Bool.or_eq_true, hx, if_true, memRead, ih]
      by_cases h1 : x = i
      · subst h1
        simp only [if_true]
        have : ¬ (a ≤ x ∧ x < a + n) := by omega
        simp [this]
      · simp [h1]
    · simp only [List.filter_cons, decide_eq_true_eq, Bool.or_eq_true, hx, if_false, ih, memRead]
      by_cases h1 : x = i
      · subst h1
        have : a ≤ x ∧ x < a + n := by omega
        simp [this]
      · simp [h1]

/-- Reset leaves device and host memory in canonical form. -/
theorem wf_reset : Memory.wf State.reset.mem = true ∧ Memory.wf State.reset.hostMem = true := ⟨rfl, rfl⟩

end Sys2Proof.Machine
end

