-- ==== Sys2Proof/Laws/State.lean ====
section
/-! SUPPORT. What each named update of State leaves of every field, so that no proof unfolds a record update; and the units
of the module after an update of one of them. -/

namespace Sys2Proof.Machine


/-! ## State.onCore -/

@[simp] theorem State.onCore_cores (s : State) (c : Nat) (f : Core → Core) : (s.onCore c f).cores = aput s.cores c (f (s.core c)) := rfl
@[simp] theorem State.onCore_slices (s : State) (c : Nat) (f : Core → Core) : (s.onCore c f).slices = s.slices := rfl
@[simp] theorem State.onCore_mem (s : State) (c : Nat) (f : Core → Core) : (s.onCore c f).mem = s.mem := rfl
@[simp] theorem State.onCore_undo (s : State) (c : Nat) (f : Core → Core) : (s.onCore c f).undo = s.undo := rfl
@[simp] theorem State.onCore_poison (s : State) (c : Nat) (f : Core → Core) : (s.onCore c f).poison = s.poison := rfl
@[simp] theorem State.onCore_rels (s : State) (c : Nat) (f : Core → Core) : (s.onCore c f).rels = s.rels := rfl
@[simp] theorem State.onCore_hostMem (s : State) (c : Nat) (f : Core → Core) : (s.onCore c f).hostMem = s.hostMem := rfl
@[simp] theorem State.onCore_agent (s : State) (c : Nat) (f : Core → Core) : (s.onCore c f).agent = s.agent := rfl
@[simp] theorem State.onCore_tlb (s : State) (c : Nat) (f : Core → Core) : (s.onCore c f).tlb = s.tlb := rfl
@[simp] theorem State.onCore_migs (s : State) (c : Nat) (f : Core → Core) : (s.onCore c f).migs = s.migs := rfl
@[simp] theorem State.onCore_tlbinvs (s : State) (c : Nat) (f : Core → Core) : (s.onCore c f).tlbinvs = s.tlbinvs := rfl
@[simp] theorem State.onCore_larder (s : State) (c : Nat) (f : Core → Core) : (s.onCore c f).larder = s.larder := rfl
@[simp] theorem State.onCore_ldcfg (s : State) (c : Nat) (f : Core → Core) : (s.onCore c f).ldcfg = s.ldcfg := rfl
@[simp] theorem State.onCore_builds (s : State) (c : Nat) (f : Core → Core) : (s.onCore c f).builds = s.builds := rfl
@[simp] theorem State.onCore_nextl (s : State) (c : Nat) (f : Core → Core) : (s.onCore c f).nextl = s.nextl := rfl
@[simp] theorem State.onCore_launches (s : State) (c : Nat) (f : Core → Core) : (s.onCore c f).launches = s.launches := rfl
@[simp] theorem State.onCore_engines (s : State) (c : Nat) (f : Core → Core) : (s.onCore c f).engines = s.engines := rfl
@[simp] theorem State.onCore_ports (s : State) (c : Nat) (f : Core → Core) : (s.onCore c f).ports = s.ports := rfl
@[simp] theorem State.onCore_sysnum (s : State) (c : Nat) (f : Core → Core) : (s.onCore c f).sysnum = s.sysnum := rfl
@[simp] theorem State.onCore_routes (s : State) (c : Nat) (f : Core → Core) : (s.onCore c f).routes = s.routes := rfl
@[simp] theorem State.onCore_joints (s : State) (c : Nat) (f : Core → Core) : (s.onCore c f).joints = s.joints := rfl
@[simp] theorem State.onCore_collectors (s : State) (c : Nat) (f : Core → Core) : (s.onCore c f).collectors = s.collectors := rfl
@[simp] theorem State.onCore_spill (s : State) (c : Nat) (f : Core → Core) : (s.onCore c f).spill = s.spill := rfl
@[simp] theorem State.onCore_records (s : State) (c : Nat) (f : Core → Core) : (s.onCore c f).records = s.records := rfl
@[simp] theorem State.onCore_saved (s : State) (c : Nat) (f : Core → Core) : (s.onCore c f).saved = s.saved := rfl
@[simp] theorem State.onCore_timebase (s : State) (c : Nat) (f : Core → Core) : (s.onCore c f).timebase = s.timebase := rfl
@[simp] theorem State.onCore_timeRead (s : State) (c : Nat) (f : Core → Core) : (s.onCore c f).timeRead = s.timeRead := rfl
@[simp] theorem State.onCore_ptmFails (s : State) (c : Nat) (f : Core → Core) : (s.onCore c f).ptmFails = s.ptmFails := rfl
@[simp] theorem State.onCore_ptmDone (s : State) (c : Nat) (f : Core → Core) : (s.onCore c f).ptmDone = s.ptmDone := rfl
@[simp] theorem State.onCore_ptmOffset (s : State) (c : Nat) (f : Core → Core) : (s.onCore c f).ptmOffset = s.ptmOffset := rfl
@[simp] theorem State.onCore_slewTime (s : State) (c : Nat) (f : Core → Core) : (s.onCore c f).slewTime = s.slewTime := rfl
@[simp] theorem State.onCore_clock (s : State) (c : Nat) (f : Core → Core) : (s.onCore c f).clock = s.clock := rfl
@[simp] theorem State.onCore_ptmAt (s : State) (c : Nat) (f : Core → Core) : (s.onCore c f).ptmAt = s.ptmAt := rfl
@[simp] theorem State.onCore_lvlAt (s : State) (c : Nat) (f : Core → Core) : (s.onCore c f).lvlAt = s.lvlAt := rfl
@[simp] theorem State.onCore_thermal (s : State) (c : Nat) (f : Core → Core) : (s.onCore c f).thermal = s.thermal := rfl
@[simp] theorem State.onCore_events (s : State) (c : Nat) (f : Core → Core) : (s.onCore c f).events = s.events := rfl
@[simp] theorem State.onCore_errs (s : State) (c : Nat) (f : Core → Core) : (s.onCore c f).errs = s.errs := rfl
@[simp] theorem State.onCore_thresholds (s : State) (c : Nat) (f : Core → Core) : (s.onCore c f).thresholds = s.thresholds := rfl
@[simp] theorem State.onCore_dev (s : State) (c : Nat) (f : Core → Core) : (s.onCore c f).dev = s.dev := rfl
@[simp] theorem State.onCore_halted (s : State) (c : Nat) (f : Core → Core) : (s.onCore c f).halted = s.halted := rfl
@[simp] theorem State.onCore_agenda (s : State) (c : Nat) (f : Core → Core) : (s.onCore c f).agenda = s.agenda := rfl
@[simp] theorem State.onCore_due (s : State) (c : Nat) (f : Core → Core) : (s.onCore c f).due = s.due := rfl
@[simp] theorem State.onCore_cur (s : State) (c : Nat) (f : Core → Core) : (s.onCore c f).cur = s.cur := rfl
@[simp] theorem State.onCore_lat (s : State) (c : Nat) (f : Core → Core) : (s.onCore c f).lat = s.lat := rfl
@[simp] theorem State.onCore_packet (s : State) (c : Nat) (f : Core → Core) : (s.onCore c f).packet = s.packet := rfl
@[simp] theorem State.onCore_draws (s : State) (c : Nat) (f : Core → Core) : (s.onCore c f).draws = s.draws := rfl
@[simp] theorem State.onCore_nextId (s : State) (c : Nat) (f : Core → Core) : (s.onCore c f).nextId = s.nextId := rfl
@[simp] theorem State.onCore_cycle (s : State) (c : Nat) (f : Core → Core) : (s.onCore c f).cycle = s.cycle := rfl
@[simp] theorem State.onCore_sent (s : State) (c : Nat) (f : Core → Core) : (s.onCore c f).sent = s.sent := rfl
@[simp] theorem State.onCore_heldFlits (s : State) (c : Nat) (f : Core → Core) : (s.onCore c f).heldFlits = s.heldFlits := rfl
@[simp] theorem State.onCore_tags (s : State) (c : Nat) (f : Core → Core) : (s.onCore c f).tags = s.tags := rfl
@[simp] theorem State.onCore_incoming (s : State) (c : Nat) (f : Core → Core) : (s.onCore c f).incoming = s.incoming := rfl
@[simp] theorem State.onCore_failedIn (s : State) (c : Nat) (f : Core → Core) : (s.onCore c f).failedIn = s.failedIn := rfl
@[simp] theorem State.onCore_order (s : State) (c : Nat) (f : Core → Core) : (s.onCore c f).order = s.order := rfl
@[simp] theorem State.onCore_out (s : State) (c : Nat) (f : Core → Core) : (s.onCore c f).out = s.out := rfl

/-! ## State.onStrand -/

@[simp] theorem State.onStrand_slices (s : State) (c t : Nat) (f : Strand → Strand) : (s.onStrand c t f).slices = s.slices := rfl
@[simp] theorem State.onStrand_mem (s : State) (c t : Nat) (f : Strand → Strand) : (s.onStrand c t f).mem = s.mem := rfl
@[simp] theorem State.onStrand_undo (s : State) (c t : Nat) (f : Strand → Strand) : (s.onStrand c t f).undo = s.undo := rfl
@[simp] theorem State.onStrand_poison (s : State) (c t : Nat) (f : Strand → Strand) : (s.onStrand c t f).poison = s.poison := rfl
@[simp] theorem State.onStrand_rels (s : State) (c t : Nat) (f : Strand → Strand) : (s.onStrand c t f).rels = s.rels := rfl
@[simp] theorem State.onStrand_hostMem (s : State) (c t : Nat) (f : Strand → Strand) : (s.onStrand c t f).hostMem = s.hostMem := rfl
@[simp] theorem State.onStrand_agent (s : State) (c t : Nat) (f : Strand → Strand) : (s.onStrand c t f).agent = s.agent := rfl
@[simp] theorem State.onStrand_tlb (s : State) (c t : Nat) (f : Strand → Strand) : (s.onStrand c t f).tlb = s.tlb := rfl
@[simp] theorem State.onStrand_migs (s : State) (c t : Nat) (f : Strand → Strand) : (s.onStrand c t f).migs = s.migs := rfl
@[simp] theorem State.onStrand_tlbinvs (s : State) (c t : Nat) (f : Strand → Strand) : (s.onStrand c t f).tlbinvs = s.tlbinvs := rfl
@[simp] theorem State.onStrand_larder (s : State) (c t : Nat) (f : Strand → Strand) : (s.onStrand c t f).larder = s.larder := rfl
@[simp] theorem State.onStrand_ldcfg (s : State) (c t : Nat) (f : Strand → Strand) : (s.onStrand c t f).ldcfg = s.ldcfg := rfl
@[simp] theorem State.onStrand_builds (s : State) (c t : Nat) (f : Strand → Strand) : (s.onStrand c t f).builds = s.builds := rfl
@[simp] theorem State.onStrand_nextl (s : State) (c t : Nat) (f : Strand → Strand) : (s.onStrand c t f).nextl = s.nextl := rfl
@[simp] theorem State.onStrand_launches (s : State) (c t : Nat) (f : Strand → Strand) : (s.onStrand c t f).launches = s.launches := rfl
@[simp] theorem State.onStrand_engines (s : State) (c t : Nat) (f : Strand → Strand) : (s.onStrand c t f).engines = s.engines := rfl
@[simp] theorem State.onStrand_ports (s : State) (c t : Nat) (f : Strand → Strand) : (s.onStrand c t f).ports = s.ports := rfl
@[simp] theorem State.onStrand_sysnum (s : State) (c t : Nat) (f : Strand → Strand) : (s.onStrand c t f).sysnum = s.sysnum := rfl
@[simp] theorem State.onStrand_routes (s : State) (c t : Nat) (f : Strand → Strand) : (s.onStrand c t f).routes = s.routes := rfl
@[simp] theorem State.onStrand_joints (s : State) (c t : Nat) (f : Strand → Strand) : (s.onStrand c t f).joints = s.joints := rfl
@[simp] theorem State.onStrand_collectors (s : State) (c t : Nat) (f : Strand → Strand) : (s.onStrand c t f).collectors = s.collectors := rfl
@[simp] theorem State.onStrand_spill (s : State) (c t : Nat) (f : Strand → Strand) : (s.onStrand c t f).spill = s.spill := rfl
@[simp] theorem State.onStrand_records (s : State) (c t : Nat) (f : Strand → Strand) : (s.onStrand c t f).records = s.records := rfl
@[simp] theorem State.onStrand_saved (s : State) (c t : Nat) (f : Strand → Strand) : (s.onStrand c t f).saved = s.saved := rfl
@[simp] theorem State.onStrand_timebase (s : State) (c t : Nat) (f : Strand → Strand) : (s.onStrand c t f).timebase = s.timebase := rfl
@[simp] theorem State.onStrand_timeRead (s : State) (c t : Nat) (f : Strand → Strand) : (s.onStrand c t f).timeRead = s.timeRead := rfl
@[simp] theorem State.onStrand_ptmFails (s : State) (c t : Nat) (f : Strand → Strand) : (s.onStrand c t f).ptmFails = s.ptmFails := rfl
@[simp] theorem State.onStrand_ptmDone (s : State) (c t : Nat) (f : Strand → Strand) : (s.onStrand c t f).ptmDone = s.ptmDone := rfl
@[simp] theorem State.onStrand_ptmOffset (s : State) (c t : Nat) (f : Strand → Strand) : (s.onStrand c t f).ptmOffset = s.ptmOffset := rfl
@[simp] theorem State.onStrand_slewTime (s : State) (c t : Nat) (f : Strand → Strand) : (s.onStrand c t f).slewTime = s.slewTime := rfl
@[simp] theorem State.onStrand_clock (s : State) (c t : Nat) (f : Strand → Strand) : (s.onStrand c t f).clock = s.clock := rfl
@[simp] theorem State.onStrand_ptmAt (s : State) (c t : Nat) (f : Strand → Strand) : (s.onStrand c t f).ptmAt = s.ptmAt := rfl
@[simp] theorem State.onStrand_lvlAt (s : State) (c t : Nat) (f : Strand → Strand) : (s.onStrand c t f).lvlAt = s.lvlAt := rfl
@[simp] theorem State.onStrand_thermal (s : State) (c t : Nat) (f : Strand → Strand) : (s.onStrand c t f).thermal = s.thermal := rfl
@[simp] theorem State.onStrand_events (s : State) (c t : Nat) (f : Strand → Strand) : (s.onStrand c t f).events = s.events := rfl
@[simp] theorem State.onStrand_errs (s : State) (c t : Nat) (f : Strand → Strand) : (s.onStrand c t f).errs = s.errs := rfl
@[simp] theorem State.onStrand_thresholds (s : State) (c t : Nat) (f : Strand → Strand) : (s.onStrand c t f).thresholds = s.thresholds := rfl
@[simp] theorem State.onStrand_dev (s : State) (c t : Nat) (f : Strand → Strand) : (s.onStrand c t f).dev = s.dev := rfl
@[simp] theorem State.onStrand_halted (s : State) (c t : Nat) (f : Strand → Strand) : (s.onStrand c t f).halted = s.halted := rfl
@[simp] theorem State.onStrand_agenda (s : State) (c t : Nat) (f : Strand → Strand) : (s.onStrand c t f).agenda = s.agenda := rfl
@[simp] theorem State.onStrand_due (s : State) (c t : Nat) (f : Strand → Strand) : (s.onStrand c t f).due = s.due := rfl
@[simp] theorem State.onStrand_cur (s : State) (c t : Nat) (f : Strand → Strand) : (s.onStrand c t f).cur = s.cur := rfl
@[simp] theorem State.onStrand_lat (s : State) (c t : Nat) (f : Strand → Strand) : (s.onStrand c t f).lat = s.lat := rfl
@[simp] theorem State.onStrand_packet (s : State) (c t : Nat) (f : Strand → Strand) : (s.onStrand c t f).packet = s.packet := rfl
@[simp] theorem State.onStrand_draws (s : State) (c t : Nat) (f : Strand → Strand) : (s.onStrand c t f).draws = s.draws := rfl
@[simp] theorem State.onStrand_nextId (s : State) (c t : Nat) (f : Strand → Strand) : (s.onStrand c t f).nextId = s.nextId := rfl
@[simp] theorem State.onStrand_cycle (s : State) (c t : Nat) (f : Strand → Strand) : (s.onStrand c t f).cycle = s.cycle := rfl
@[simp] theorem State.onStrand_sent (s : State) (c t : Nat) (f : Strand → Strand) : (s.onStrand c t f).sent = s.sent := rfl
@[simp] theorem State.onStrand_heldFlits (s : State) (c t : Nat) (f : Strand → Strand) : (s.onStrand c t f).heldFlits = s.heldFlits := rfl
@[simp] theorem State.onStrand_tags (s : State) (c t : Nat) (f : Strand → Strand) : (s.onStrand c t f).tags = s.tags := rfl
@[simp] theorem State.onStrand_incoming (s : State) (c t : Nat) (f : Strand → Strand) : (s.onStrand c t f).incoming = s.incoming := rfl
@[simp] theorem State.onStrand_failedIn (s : State) (c t : Nat) (f : Strand → Strand) : (s.onStrand c t f).failedIn = s.failedIn := rfl
@[simp] theorem State.onStrand_order (s : State) (c t : Nat) (f : Strand → Strand) : (s.onStrand c t f).order = s.order := rfl
@[simp] theorem State.onStrand_out (s : State) (c t : Nat) (f : Strand → Strand) : (s.onStrand c t f).out = s.out := rfl

/-! ## State.onBlock -/

@[simp] theorem State.onBlock_slices (s : State) (c t : Nat) (f : Block → Block) : (s.onBlock c t f).slices = s.slices := rfl
@[simp] theorem State.onBlock_mem (s : State) (c t : Nat) (f : Block → Block) : (s.onBlock c t f).mem = s.mem := rfl
@[simp] theorem State.onBlock_undo (s : State) (c t : Nat) (f : Block → Block) : (s.onBlock c t f).undo = s.undo := rfl
@[simp] theorem State.onBlock_poison (s : State) (c t : Nat) (f : Block → Block) : (s.onBlock c t f).poison = s.poison := rfl
@[simp] theorem State.onBlock_rels (s : State) (c t : Nat) (f : Block → Block) : (s.onBlock c t f).rels = s.rels := rfl
@[simp] theorem State.onBlock_hostMem (s : State) (c t : Nat) (f : Block → Block) : (s.onBlock c t f).hostMem = s.hostMem := rfl
@[simp] theorem State.onBlock_agent (s : State) (c t : Nat) (f : Block → Block) : (s.onBlock c t f).agent = s.agent := rfl
@[simp] theorem State.onBlock_tlb (s : State) (c t : Nat) (f : Block → Block) : (s.onBlock c t f).tlb = s.tlb := rfl
@[simp] theorem State.onBlock_migs (s : State) (c t : Nat) (f : Block → Block) : (s.onBlock c t f).migs = s.migs := rfl
@[simp] theorem State.onBlock_tlbinvs (s : State) (c t : Nat) (f : Block → Block) : (s.onBlock c t f).tlbinvs = s.tlbinvs := rfl
@[simp] theorem State.onBlock_larder (s : State) (c t : Nat) (f : Block → Block) : (s.onBlock c t f).larder = s.larder := rfl
@[simp] theorem State.onBlock_ldcfg (s : State) (c t : Nat) (f : Block → Block) : (s.onBlock c t f).ldcfg = s.ldcfg := rfl
@[simp] theorem State.onBlock_builds (s : State) (c t : Nat) (f : Block → Block) : (s.onBlock c t f).builds = s.builds := rfl
@[simp] theorem State.onBlock_nextl (s : State) (c t : Nat) (f : Block → Block) : (s.onBlock c t f).nextl = s.nextl := rfl
@[simp] theorem State.onBlock_launches (s : State) (c t : Nat) (f : Block → Block) : (s.onBlock c t f).launches = s.launches := rfl
@[simp] theorem State.onBlock_engines (s : State) (c t : Nat) (f : Block → Block) : (s.onBlock c t f).engines = s.engines := rfl
@[simp] theorem State.onBlock_ports (s : State) (c t : Nat) (f : Block → Block) : (s.onBlock c t f).ports = s.ports := rfl
@[simp] theorem State.onBlock_sysnum (s : State) (c t : Nat) (f : Block → Block) : (s.onBlock c t f).sysnum = s.sysnum := rfl
@[simp] theorem State.onBlock_routes (s : State) (c t : Nat) (f : Block → Block) : (s.onBlock c t f).routes = s.routes := rfl
@[simp] theorem State.onBlock_joints (s : State) (c t : Nat) (f : Block → Block) : (s.onBlock c t f).joints = s.joints := rfl
@[simp] theorem State.onBlock_collectors (s : State) (c t : Nat) (f : Block → Block) : (s.onBlock c t f).collectors = s.collectors := rfl
@[simp] theorem State.onBlock_spill (s : State) (c t : Nat) (f : Block → Block) : (s.onBlock c t f).spill = s.spill := rfl
@[simp] theorem State.onBlock_records (s : State) (c t : Nat) (f : Block → Block) : (s.onBlock c t f).records = s.records := rfl
@[simp] theorem State.onBlock_saved (s : State) (c t : Nat) (f : Block → Block) : (s.onBlock c t f).saved = s.saved := rfl
@[simp] theorem State.onBlock_timebase (s : State) (c t : Nat) (f : Block → Block) : (s.onBlock c t f).timebase = s.timebase := rfl
@[simp] theorem State.onBlock_timeRead (s : State) (c t : Nat) (f : Block → Block) : (s.onBlock c t f).timeRead = s.timeRead := rfl
@[simp] theorem State.onBlock_ptmFails (s : State) (c t : Nat) (f : Block → Block) : (s.onBlock c t f).ptmFails = s.ptmFails := rfl
@[simp] theorem State.onBlock_ptmDone (s : State) (c t : Nat) (f : Block → Block) : (s.onBlock c t f).ptmDone = s.ptmDone := rfl
@[simp] theorem State.onBlock_ptmOffset (s : State) (c t : Nat) (f : Block → Block) : (s.onBlock c t f).ptmOffset = s.ptmOffset := rfl
@[simp] theorem State.onBlock_slewTime (s : State) (c t : Nat) (f : Block → Block) : (s.onBlock c t f).slewTime = s.slewTime := rfl
@[simp] theorem State.onBlock_clock (s : State) (c t : Nat) (f : Block → Block) : (s.onBlock c t f).clock = s.clock := rfl
@[simp] theorem State.onBlock_ptmAt (s : State) (c t : Nat) (f : Block → Block) : (s.onBlock c t f).ptmAt = s.ptmAt := rfl
@[simp] theorem State.onBlock_lvlAt (s : State) (c t : Nat) (f : Block → Block) : (s.onBlock c t f).lvlAt = s.lvlAt := rfl
@[simp] theorem State.onBlock_thermal (s : State) (c t : Nat) (f : Block → Block) : (s.onBlock c t f).thermal = s.thermal := rfl
@[simp] theorem State.onBlock_events (s : State) (c t : Nat) (f : Block → Block) : (s.onBlock c t f).events = s.events := rfl
@[simp] theorem State.onBlock_errs (s : State) (c t : Nat) (f : Block → Block) : (s.onBlock c t f).errs = s.errs := rfl
@[simp] theorem State.onBlock_thresholds (s : State) (c t : Nat) (f : Block → Block) : (s.onBlock c t f).thresholds = s.thresholds := rfl
@[simp] theorem State.onBlock_dev (s : State) (c t : Nat) (f : Block → Block) : (s.onBlock c t f).dev = s.dev := rfl
@[simp] theorem State.onBlock_halted (s : State) (c t : Nat) (f : Block → Block) : (s.onBlock c t f).halted = s.halted := rfl
@[simp] theorem State.onBlock_agenda (s : State) (c t : Nat) (f : Block → Block) : (s.onBlock c t f).agenda = s.agenda := rfl
@[simp] theorem State.onBlock_due (s : State) (c t : Nat) (f : Block → Block) : (s.onBlock c t f).due = s.due := rfl
@[simp] theorem State.onBlock_cur (s : State) (c t : Nat) (f : Block → Block) : (s.onBlock c t f).cur = s.cur := rfl
@[simp] theorem State.onBlock_lat (s : State) (c t : Nat) (f : Block → Block) : (s.onBlock c t f).lat = s.lat := rfl
@[simp] theorem State.onBlock_packet (s : State) (c t : Nat) (f : Block → Block) : (s.onBlock c t f).packet = s.packet := rfl
@[simp] theorem State.onBlock_draws (s : State) (c t : Nat) (f : Block → Block) : (s.onBlock c t f).draws = s.draws := rfl
@[simp] theorem State.onBlock_nextId (s : State) (c t : Nat) (f : Block → Block) : (s.onBlock c t f).nextId = s.nextId := rfl
@[simp] theorem State.onBlock_cycle (s : State) (c t : Nat) (f : Block → Block) : (s.onBlock c t f).cycle = s.cycle := rfl
@[simp] theorem State.onBlock_sent (s : State) (c t : Nat) (f : Block → Block) : (s.onBlock c t f).sent = s.sent := rfl
@[simp] theorem State.onBlock_heldFlits (s : State) (c t : Nat) (f : Block → Block) : (s.onBlock c t f).heldFlits = s.heldFlits := rfl
@[simp] theorem State.onBlock_tags (s : State) (c t : Nat) (f : Block → Block) : (s.onBlock c t f).tags = s.tags := rfl
@[simp] theorem State.onBlock_incoming (s : State) (c t : Nat) (f : Block → Block) : (s.onBlock c t f).incoming = s.incoming := rfl
@[simp] theorem State.onBlock_failedIn (s : State) (c t : Nat) (f : Block → Block) : (s.onBlock c t f).failedIn = s.failedIn := rfl
@[simp] theorem State.onBlock_order (s : State) (c t : Nat) (f : Block → Block) : (s.onBlock c t f).order = s.order := rfl
@[simp] theorem State.onBlock_out (s : State) (c t : Nat) (f : Block → Block) : (s.onBlock c t f).out = s.out := rfl

/-! ## State.onChan -/

@[simp] theorem State.onChan_slices (s : State) (c d : Nat) (f : Chan → Chan) : (s.onChan c d f).slices = s.slices := rfl
@[simp] theorem State.onChan_mem (s : State) (c d : Nat) (f : Chan → Chan) : (s.onChan c d f).mem = s.mem := rfl
@[simp] theorem State.onChan_undo (s : State) (c d : Nat) (f : Chan → Chan) : (s.onChan c d f).undo = s.undo := rfl
@[simp] theorem State.onChan_poison (s : State) (c d : Nat) (f : Chan → Chan) : (s.onChan c d f).poison = s.poison := rfl
@[simp] theorem State.onChan_rels (s : State) (c d : Nat) (f : Chan → Chan) : (s.onChan c d f).rels = s.rels := rfl
@[simp] theorem State.onChan_hostMem (s : State) (c d : Nat) (f : Chan → Chan) : (s.onChan c d f).hostMem = s.hostMem := rfl
@[simp] theorem State.onChan_agent (s : State) (c d : Nat) (f : Chan → Chan) : (s.onChan c d f).agent = s.agent := rfl
@[simp] theorem State.onChan_tlb (s : State) (c d : Nat) (f : Chan → Chan) : (s.onChan c d f).tlb = s.tlb := rfl
@[simp] theorem State.onChan_migs (s : State) (c d : Nat) (f : Chan → Chan) : (s.onChan c d f).migs = s.migs := rfl
@[simp] theorem State.onChan_tlbinvs (s : State) (c d : Nat) (f : Chan → Chan) : (s.onChan c d f).tlbinvs = s.tlbinvs := rfl
@[simp] theorem State.onChan_larder (s : State) (c d : Nat) (f : Chan → Chan) : (s.onChan c d f).larder = s.larder := rfl
@[simp] theorem State.onChan_ldcfg (s : State) (c d : Nat) (f : Chan → Chan) : (s.onChan c d f).ldcfg = s.ldcfg := rfl
@[simp] theorem State.onChan_builds (s : State) (c d : Nat) (f : Chan → Chan) : (s.onChan c d f).builds = s.builds := rfl
@[simp] theorem State.onChan_nextl (s : State) (c d : Nat) (f : Chan → Chan) : (s.onChan c d f).nextl = s.nextl := rfl
@[simp] theorem State.onChan_launches (s : State) (c d : Nat) (f : Chan → Chan) : (s.onChan c d f).launches = s.launches := rfl
@[simp] theorem State.onChan_engines (s : State) (c d : Nat) (f : Chan → Chan) : (s.onChan c d f).engines = s.engines := rfl
@[simp] theorem State.onChan_ports (s : State) (c d : Nat) (f : Chan → Chan) : (s.onChan c d f).ports = s.ports := rfl
@[simp] theorem State.onChan_sysnum (s : State) (c d : Nat) (f : Chan → Chan) : (s.onChan c d f).sysnum = s.sysnum := rfl
@[simp] theorem State.onChan_routes (s : State) (c d : Nat) (f : Chan → Chan) : (s.onChan c d f).routes = s.routes := rfl
@[simp] theorem State.onChan_joints (s : State) (c d : Nat) (f : Chan → Chan) : (s.onChan c d f).joints = s.joints := rfl
@[simp] theorem State.onChan_collectors (s : State) (c d : Nat) (f : Chan → Chan) : (s.onChan c d f).collectors = s.collectors := rfl
@[simp] theorem State.onChan_spill (s : State) (c d : Nat) (f : Chan → Chan) : (s.onChan c d f).spill = s.spill := rfl
@[simp] theorem State.onChan_records (s : State) (c d : Nat) (f : Chan → Chan) : (s.onChan c d f).records = s.records := rfl
@[simp] theorem State.onChan_saved (s : State) (c d : Nat) (f : Chan → Chan) : (s.onChan c d f).saved = s.saved := rfl
@[simp] theorem State.onChan_timebase (s : State) (c d : Nat) (f : Chan → Chan) : (s.onChan c d f).timebase = s.timebase := rfl
@[simp] theorem State.onChan_timeRead (s : State) (c d : Nat) (f : Chan → Chan) : (s.onChan c d f).timeRead = s.timeRead := rfl
@[simp] theorem State.onChan_ptmFails (s : State) (c d : Nat) (f : Chan → Chan) : (s.onChan c d f).ptmFails = s.ptmFails := rfl
@[simp] theorem State.onChan_ptmDone (s : State) (c d : Nat) (f : Chan → Chan) : (s.onChan c d f).ptmDone = s.ptmDone := rfl
@[simp] theorem State.onChan_ptmOffset (s : State) (c d : Nat) (f : Chan → Chan) : (s.onChan c d f).ptmOffset = s.ptmOffset := rfl
@[simp] theorem State.onChan_slewTime (s : State) (c d : Nat) (f : Chan → Chan) : (s.onChan c d f).slewTime = s.slewTime := rfl
@[simp] theorem State.onChan_clock (s : State) (c d : Nat) (f : Chan → Chan) : (s.onChan c d f).clock = s.clock := rfl
@[simp] theorem State.onChan_ptmAt (s : State) (c d : Nat) (f : Chan → Chan) : (s.onChan c d f).ptmAt = s.ptmAt := rfl
@[simp] theorem State.onChan_lvlAt (s : State) (c d : Nat) (f : Chan → Chan) : (s.onChan c d f).lvlAt = s.lvlAt := rfl
@[simp] theorem State.onChan_thermal (s : State) (c d : Nat) (f : Chan → Chan) : (s.onChan c d f).thermal = s.thermal := rfl
@[simp] theorem State.onChan_events (s : State) (c d : Nat) (f : Chan → Chan) : (s.onChan c d f).events = s.events := rfl
@[simp] theorem State.onChan_errs (s : State) (c d : Nat) (f : Chan → Chan) : (s.onChan c d f).errs = s.errs := rfl
@[simp] theorem State.onChan_thresholds (s : State) (c d : Nat) (f : Chan → Chan) : (s.onChan c d f).thresholds = s.thresholds := rfl
@[simp] theorem State.onChan_dev (s : State) (c d : Nat) (f : Chan → Chan) : (s.onChan c d f).dev = s.dev := rfl
@[simp] theorem State.onChan_halted (s : State) (c d : Nat) (f : Chan → Chan) : (s.onChan c d f).halted = s.halted := rfl
@[simp] theorem State.onChan_agenda (s : State) (c d : Nat) (f : Chan → Chan) : (s.onChan c d f).agenda = s.agenda := rfl
@[simp] theorem State.onChan_due (s : State) (c d : Nat) (f : Chan → Chan) : (s.onChan c d f).due = s.due := rfl
@[simp] theorem State.onChan_cur (s : State) (c d : Nat) (f : Chan → Chan) : (s.onChan c d f).cur = s.cur := rfl
@[simp] theorem State.onChan_lat (s : State) (c d : Nat) (f : Chan → Chan) : (s.onChan c d f).lat = s.lat := rfl
@[simp] theorem State.onChan_packet (s : State) (c d : Nat) (f : Chan → Chan) : (s.onChan c d f).packet = s.packet := rfl
@[simp] theorem State.onChan_draws (s : State) (c d : Nat) (f : Chan → Chan) : (s.onChan c d f).draws = s.draws := rfl
@[simp] theorem State.onChan_nextId (s : State) (c d : Nat) (f : Chan → Chan) : (s.onChan c d f).nextId = s.nextId := rfl
@[simp] theorem State.onChan_cycle (s : State) (c d : Nat) (f : Chan → Chan) : (s.onChan c d f).cycle = s.cycle := rfl
@[simp] theorem State.onChan_sent (s : State) (c d : Nat) (f : Chan → Chan) : (s.onChan c d f).sent = s.sent := rfl
@[simp] theorem State.onChan_heldFlits (s : State) (c d : Nat) (f : Chan → Chan) : (s.onChan c d f).heldFlits = s.heldFlits := rfl
@[simp] theorem State.onChan_tags (s : State) (c d : Nat) (f : Chan → Chan) : (s.onChan c d f).tags = s.tags := rfl
@[simp] theorem State.onChan_incoming (s : State) (c d : Nat) (f : Chan → Chan) : (s.onChan c d f).incoming = s.incoming := rfl
@[simp] theorem State.onChan_failedIn (s : State) (c d : Nat) (f : Chan → Chan) : (s.onChan c d f).failedIn = s.failedIn := rfl
@[simp] theorem State.onChan_order (s : State) (c d : Nat) (f : Chan → Chan) : (s.onChan c d f).order = s.order := rfl
@[simp] theorem State.onChan_out (s : State) (c d : Nat) (f : Chan → Chan) : (s.onChan c d f).out = s.out := rfl

/-! ## State.onLvt -/

@[simp] theorem State.onLvt_slices (s : State) (c l : Nat) (f : LVer → LVer) : (s.onLvt c l f).slices = s.slices := rfl
@[simp] theorem State.onLvt_mem (s : State) (c l : Nat) (f : LVer → LVer) : (s.onLvt c l f).mem = s.mem := rfl
@[simp] theorem State.onLvt_undo (s : State) (c l : Nat) (f : LVer → LVer) : (s.onLvt c l f).undo = s.undo := rfl
@[simp] theorem State.onLvt_poison (s : State) (c l : Nat) (f : LVer → LVer) : (s.onLvt c l f).poison = s.poison := rfl
@[simp] theorem State.onLvt_rels (s : State) (c l : Nat) (f : LVer → LVer) : (s.onLvt c l f).rels = s.rels := rfl
@[simp] theorem State.onLvt_hostMem (s : State) (c l : Nat) (f : LVer → LVer) : (s.onLvt c l f).hostMem = s.hostMem := rfl
@[simp] theorem State.onLvt_agent (s : State) (c l : Nat) (f : LVer → LVer) : (s.onLvt c l f).agent = s.agent := rfl
@[simp] theorem State.onLvt_tlb (s : State) (c l : Nat) (f : LVer → LVer) : (s.onLvt c l f).tlb = s.tlb := rfl
@[simp] theorem State.onLvt_migs (s : State) (c l : Nat) (f : LVer → LVer) : (s.onLvt c l f).migs = s.migs := rfl
@[simp] theorem State.onLvt_tlbinvs (s : State) (c l : Nat) (f : LVer → LVer) : (s.onLvt c l f).tlbinvs = s.tlbinvs := rfl
@[simp] theorem State.onLvt_larder (s : State) (c l : Nat) (f : LVer → LVer) : (s.onLvt c l f).larder = s.larder := rfl
@[simp] theorem State.onLvt_ldcfg (s : State) (c l : Nat) (f : LVer → LVer) : (s.onLvt c l f).ldcfg = s.ldcfg := rfl
@[simp] theorem State.onLvt_builds (s : State) (c l : Nat) (f : LVer → LVer) : (s.onLvt c l f).builds = s.builds := rfl
@[simp] theorem State.onLvt_nextl (s : State) (c l : Nat) (f : LVer → LVer) : (s.onLvt c l f).nextl = s.nextl := rfl
@[simp] theorem State.onLvt_launches (s : State) (c l : Nat) (f : LVer → LVer) : (s.onLvt c l f).launches = s.launches := rfl
@[simp] theorem State.onLvt_engines (s : State) (c l : Nat) (f : LVer → LVer) : (s.onLvt c l f).engines = s.engines := rfl
@[simp] theorem State.onLvt_ports (s : State) (c l : Nat) (f : LVer → LVer) : (s.onLvt c l f).ports = s.ports := rfl
@[simp] theorem State.onLvt_sysnum (s : State) (c l : Nat) (f : LVer → LVer) : (s.onLvt c l f).sysnum = s.sysnum := rfl
@[simp] theorem State.onLvt_routes (s : State) (c l : Nat) (f : LVer → LVer) : (s.onLvt c l f).routes = s.routes := rfl
@[simp] theorem State.onLvt_joints (s : State) (c l : Nat) (f : LVer → LVer) : (s.onLvt c l f).joints = s.joints := rfl
@[simp] theorem State.onLvt_collectors (s : State) (c l : Nat) (f : LVer → LVer) : (s.onLvt c l f).collectors = s.collectors := rfl
@[simp] theorem State.onLvt_spill (s : State) (c l : Nat) (f : LVer → LVer) : (s.onLvt c l f).spill = s.spill := rfl
@[simp] theorem State.onLvt_records (s : State) (c l : Nat) (f : LVer → LVer) : (s.onLvt c l f).records = s.records := rfl
@[simp] theorem State.onLvt_saved (s : State) (c l : Nat) (f : LVer → LVer) : (s.onLvt c l f).saved = s.saved := rfl
@[simp] theorem State.onLvt_timebase (s : State) (c l : Nat) (f : LVer → LVer) : (s.onLvt c l f).timebase = s.timebase := rfl
@[simp] theorem State.onLvt_timeRead (s : State) (c l : Nat) (f : LVer → LVer) : (s.onLvt c l f).timeRead = s.timeRead := rfl
@[simp] theorem State.onLvt_ptmFails (s : State) (c l : Nat) (f : LVer → LVer) : (s.onLvt c l f).ptmFails = s.ptmFails := rfl
@[simp] theorem State.onLvt_ptmDone (s : State) (c l : Nat) (f : LVer → LVer) : (s.onLvt c l f).ptmDone = s.ptmDone := rfl
@[simp] theorem State.onLvt_ptmOffset (s : State) (c l : Nat) (f : LVer → LVer) : (s.onLvt c l f).ptmOffset = s.ptmOffset := rfl
@[simp] theorem State.onLvt_slewTime (s : State) (c l : Nat) (f : LVer → LVer) : (s.onLvt c l f).slewTime = s.slewTime := rfl
@[simp] theorem State.onLvt_clock (s : State) (c l : Nat) (f : LVer → LVer) : (s.onLvt c l f).clock = s.clock := rfl
@[simp] theorem State.onLvt_ptmAt (s : State) (c l : Nat) (f : LVer → LVer) : (s.onLvt c l f).ptmAt = s.ptmAt := rfl
@[simp] theorem State.onLvt_lvlAt (s : State) (c l : Nat) (f : LVer → LVer) : (s.onLvt c l f).lvlAt = s.lvlAt := rfl
@[simp] theorem State.onLvt_thermal (s : State) (c l : Nat) (f : LVer → LVer) : (s.onLvt c l f).thermal = s.thermal := rfl
@[simp] theorem State.onLvt_events (s : State) (c l : Nat) (f : LVer → LVer) : (s.onLvt c l f).events = s.events := rfl
@[simp] theorem State.onLvt_errs (s : State) (c l : Nat) (f : LVer → LVer) : (s.onLvt c l f).errs = s.errs := rfl
@[simp] theorem State.onLvt_thresholds (s : State) (c l : Nat) (f : LVer → LVer) : (s.onLvt c l f).thresholds = s.thresholds := rfl
@[simp] theorem State.onLvt_dev (s : State) (c l : Nat) (f : LVer → LVer) : (s.onLvt c l f).dev = s.dev := rfl
@[simp] theorem State.onLvt_halted (s : State) (c l : Nat) (f : LVer → LVer) : (s.onLvt c l f).halted = s.halted := rfl
@[simp] theorem State.onLvt_agenda (s : State) (c l : Nat) (f : LVer → LVer) : (s.onLvt c l f).agenda = s.agenda := rfl
@[simp] theorem State.onLvt_due (s : State) (c l : Nat) (f : LVer → LVer) : (s.onLvt c l f).due = s.due := rfl
@[simp] theorem State.onLvt_cur (s : State) (c l : Nat) (f : LVer → LVer) : (s.onLvt c l f).cur = s.cur := rfl
@[simp] theorem State.onLvt_lat (s : State) (c l : Nat) (f : LVer → LVer) : (s.onLvt c l f).lat = s.lat := rfl
@[simp] theorem State.onLvt_packet (s : State) (c l : Nat) (f : LVer → LVer) : (s.onLvt c l f).packet = s.packet := rfl
@[simp] theorem State.onLvt_draws (s : State) (c l : Nat) (f : LVer → LVer) : (s.onLvt c l f).draws = s.draws := rfl
@[simp] theorem State.onLvt_nextId (s : State) (c l : Nat) (f : LVer → LVer) : (s.onLvt c l f).nextId = s.nextId := rfl
@[simp] theorem State.onLvt_cycle (s : State) (c l : Nat) (f : LVer → LVer) : (s.onLvt c l f).cycle = s.cycle := rfl
@[simp] theorem State.onLvt_sent (s : State) (c l : Nat) (f : LVer → LVer) : (s.onLvt c l f).sent = s.sent := rfl
@[simp] theorem State.onLvt_heldFlits (s : State) (c l : Nat) (f : LVer → LVer) : (s.onLvt c l f).heldFlits = s.heldFlits := rfl
@[simp] theorem State.onLvt_tags (s : State) (c l : Nat) (f : LVer → LVer) : (s.onLvt c l f).tags = s.tags := rfl
@[simp] theorem State.onLvt_incoming (s : State) (c l : Nat) (f : LVer → LVer) : (s.onLvt c l f).incoming = s.incoming := rfl
@[simp] theorem State.onLvt_failedIn (s : State) (c l : Nat) (f : LVer → LVer) : (s.onLvt c l f).failedIn = s.failedIn := rfl
@[simp] theorem State.onLvt_order (s : State) (c l : Nat) (f : LVer → LVer) : (s.onLvt c l f).order = s.order := rfl
@[simp] theorem State.onLvt_out (s : State) (c l : Nat) (f : LVer → LVer) : (s.onLvt c l f).out = s.out := rfl

/-! ## State.perf -/

@[simp] theorem State.perf_slices (s : State) (c e : Nat) (t : Option Nat) : (s.perf c e t).slices = s.slices := rfl
@[simp] theorem State.perf_mem (s : State) (c e : Nat) (t : Option Nat) : (s.perf c e t).mem = s.mem := rfl
@[simp] theorem State.perf_undo (s : State) (c e : Nat) (t : Option Nat) : (s.perf c e t).undo = s.undo := rfl
@[simp] theorem State.perf_poison (s : State) (c e : Nat) (t : Option Nat) : (s.perf c e t).poison = s.poison := rfl
@[simp] theorem State.perf_rels (s : State) (c e : Nat) (t : Option Nat) : (s.perf c e t).rels = s.rels := rfl
@[simp] theorem State.perf_hostMem (s : State) (c e : Nat) (t : Option Nat) : (s.perf c e t).hostMem = s.hostMem := rfl
@[simp] theorem State.perf_agent (s : State) (c e : Nat) (t : Option Nat) : (s.perf c e t).agent = s.agent := rfl
@[simp] theorem State.perf_tlb (s : State) (c e : Nat) (t : Option Nat) : (s.perf c e t).tlb = s.tlb := rfl
@[simp] theorem State.perf_migs (s : State) (c e : Nat) (t : Option Nat) : (s.perf c e t).migs = s.migs := rfl
@[simp] theorem State.perf_tlbinvs (s : State) (c e : Nat) (t : Option Nat) : (s.perf c e t).tlbinvs = s.tlbinvs := rfl
@[simp] theorem State.perf_larder (s : State) (c e : Nat) (t : Option Nat) : (s.perf c e t).larder = s.larder := rfl
@[simp] theorem State.perf_ldcfg (s : State) (c e : Nat) (t : Option Nat) : (s.perf c e t).ldcfg = s.ldcfg := rfl
@[simp] theorem State.perf_builds (s : State) (c e : Nat) (t : Option Nat) : (s.perf c e t).builds = s.builds := rfl
@[simp] theorem State.perf_nextl (s : State) (c e : Nat) (t : Option Nat) : (s.perf c e t).nextl = s.nextl := rfl
@[simp] theorem State.perf_launches (s : State) (c e : Nat) (t : Option Nat) : (s.perf c e t).launches = s.launches := rfl
@[simp] theorem State.perf_engines (s : State) (c e : Nat) (t : Option Nat) : (s.perf c e t).engines = s.engines := rfl
@[simp] theorem State.perf_ports (s : State) (c e : Nat) (t : Option Nat) : (s.perf c e t).ports = s.ports := rfl
@[simp] theorem State.perf_sysnum (s : State) (c e : Nat) (t : Option Nat) : (s.perf c e t).sysnum = s.sysnum := rfl
@[simp] theorem State.perf_routes (s : State) (c e : Nat) (t : Option Nat) : (s.perf c e t).routes = s.routes := rfl
@[simp] theorem State.perf_joints (s : State) (c e : Nat) (t : Option Nat) : (s.perf c e t).joints = s.joints := rfl
@[simp] theorem State.perf_collectors (s : State) (c e : Nat) (t : Option Nat) : (s.perf c e t).collectors = s.collectors := rfl
@[simp] theorem State.perf_spill (s : State) (c e : Nat) (t : Option Nat) : (s.perf c e t).spill = s.spill := rfl
@[simp] theorem State.perf_records (s : State) (c e : Nat) (t : Option Nat) : (s.perf c e t).records = s.records := rfl
@[simp] theorem State.perf_saved (s : State) (c e : Nat) (t : Option Nat) : (s.perf c e t).saved = s.saved := rfl
@[simp] theorem State.perf_timebase (s : State) (c e : Nat) (t : Option Nat) : (s.perf c e t).timebase = s.timebase := rfl
@[simp] theorem State.perf_timeRead (s : State) (c e : Nat) (t : Option Nat) : (s.perf c e t).timeRead = s.timeRead := rfl
@[simp] theorem State.perf_ptmFails (s : State) (c e : Nat) (t : Option Nat) : (s.perf c e t).ptmFails = s.ptmFails := rfl
@[simp] theorem State.perf_ptmDone (s : State) (c e : Nat) (t : Option Nat) : (s.perf c e t).ptmDone = s.ptmDone := rfl
@[simp] theorem State.perf_ptmOffset (s : State) (c e : Nat) (t : Option Nat) : (s.perf c e t).ptmOffset = s.ptmOffset := rfl
@[simp] theorem State.perf_slewTime (s : State) (c e : Nat) (t : Option Nat) : (s.perf c e t).slewTime = s.slewTime := rfl
@[simp] theorem State.perf_clock (s : State) (c e : Nat) (t : Option Nat) : (s.perf c e t).clock = s.clock := rfl
@[simp] theorem State.perf_ptmAt (s : State) (c e : Nat) (t : Option Nat) : (s.perf c e t).ptmAt = s.ptmAt := rfl
@[simp] theorem State.perf_lvlAt (s : State) (c e : Nat) (t : Option Nat) : (s.perf c e t).lvlAt = s.lvlAt := rfl
@[simp] theorem State.perf_thermal (s : State) (c e : Nat) (t : Option Nat) : (s.perf c e t).thermal = s.thermal := rfl
@[simp] theorem State.perf_events (s : State) (c e : Nat) (t : Option Nat) : (s.perf c e t).events = s.events := rfl
@[simp] theorem State.perf_errs (s : State) (c e : Nat) (t : Option Nat) : (s.perf c e t).errs = s.errs := rfl
@[simp] theorem State.perf_thresholds (s : State) (c e : Nat) (t : Option Nat) : (s.perf c e t).thresholds = s.thresholds := rfl
@[simp] theorem State.perf_dev (s : State) (c e : Nat) (t : Option Nat) : (s.perf c e t).dev = s.dev := rfl
@[simp] theorem State.perf_halted (s : State) (c e : Nat) (t : Option Nat) : (s.perf c e t).halted = s.halted := rfl
@[simp] theorem State.perf_agenda (s : State) (c e : Nat) (t : Option Nat) : (s.perf c e t).agenda = s.agenda := rfl
@[simp] theorem State.perf_due (s : State) (c e : Nat) (t : Option Nat) : (s.perf c e t).due = s.due := rfl
@[simp] theorem State.perf_cur (s : State) (c e : Nat) (t : Option Nat) : (s.perf c e t).cur = s.cur := rfl
@[simp] theorem State.perf_lat (s : State) (c e : Nat) (t : Option Nat) : (s.perf c e t).lat = s.lat := rfl
@[simp] theorem State.perf_packet (s : State) (c e : Nat) (t : Option Nat) : (s.perf c e t).packet = s.packet := rfl
@[simp] theorem State.perf_draws (s : State) (c e : Nat) (t : Option Nat) : (s.perf c e t).draws = s.draws := rfl
@[simp] theorem State.perf_nextId (s : State) (c e : Nat) (t : Option Nat) : (s.perf c e t).nextId = s.nextId := rfl
@[simp] theorem State.perf_cycle (s : State) (c e : Nat) (t : Option Nat) : (s.perf c e t).cycle = s.cycle := rfl
@[simp] theorem State.perf_sent (s : State) (c e : Nat) (t : Option Nat) : (s.perf c e t).sent = s.sent := rfl
@[simp] theorem State.perf_heldFlits (s : State) (c e : Nat) (t : Option Nat) : (s.perf c e t).heldFlits = s.heldFlits := rfl
@[simp] theorem State.perf_tags (s : State) (c e : Nat) (t : Option Nat) : (s.perf c e t).tags = s.tags := rfl
@[simp] theorem State.perf_incoming (s : State) (c e : Nat) (t : Option Nat) : (s.perf c e t).incoming = s.incoming := rfl
@[simp] theorem State.perf_failedIn (s : State) (c e : Nat) (t : Option Nat) : (s.perf c e t).failedIn = s.failedIn := rfl
@[simp] theorem State.perf_order (s : State) (c e : Nat) (t : Option Nat) : (s.perf c e t).order = s.order := rfl
@[simp] theorem State.perf_out (s : State) (c e : Nat) (t : Option Nat) : (s.perf c e t).out = s.out := rfl

/-! ## State.onSlice -/

@[simp] theorem State.onSlice_cores (s : State) (k : Nat) (f : Slice → Slice) : (s.onSlice k f).cores = s.cores := rfl
@[simp] theorem State.onSlice_slices (s : State) (k : Nat) (f : Slice → Slice) : (s.onSlice k f).slices = aput s.slices k (f (s.slice k)) := rfl
@[simp] theorem State.onSlice_mem (s : State) (k : Nat) (f : Slice → Slice) : (s.onSlice k f).mem = s.mem := rfl
@[simp] theorem State.onSlice_undo (s : State) (k : Nat) (f : Slice → Slice) : (s.onSlice k f).undo = s.undo := rfl
@[simp] theorem State.onSlice_poison (s : State) (k : Nat) (f : Slice → Slice) : (s.onSlice k f).poison = s.poison := rfl
@[simp] theorem State.onSlice_rels (s : State) (k : Nat) (f : Slice → Slice) : (s.onSlice k f).rels = s.rels := rfl
@[simp] theorem State.onSlice_hostMem (s : State) (k : Nat) (f : Slice → Slice) : (s.onSlice k f).hostMem = s.hostMem := rfl
@[simp] theorem State.onSlice_agent (s : State) (k : Nat) (f : Slice → Slice) : (s.onSlice k f).agent = s.agent := rfl
@[simp] theorem State.onSlice_tlb (s : State) (k : Nat) (f : Slice → Slice) : (s.onSlice k f).tlb = s.tlb := rfl
@[simp] theorem State.onSlice_migs (s : State) (k : Nat) (f : Slice → Slice) : (s.onSlice k f).migs = s.migs := rfl
@[simp] theorem State.onSlice_tlbinvs (s : State) (k : Nat) (f : Slice → Slice) : (s.onSlice k f).tlbinvs = s.tlbinvs := rfl
@[simp] theorem State.onSlice_larder (s : State) (k : Nat) (f : Slice → Slice) : (s.onSlice k f).larder = s.larder := rfl
@[simp] theorem State.onSlice_ldcfg (s : State) (k : Nat) (f : Slice → Slice) : (s.onSlice k f).ldcfg = s.ldcfg := rfl
@[simp] theorem State.onSlice_builds (s : State) (k : Nat) (f : Slice → Slice) : (s.onSlice k f).builds = s.builds := rfl
@[simp] theorem State.onSlice_nextl (s : State) (k : Nat) (f : Slice → Slice) : (s.onSlice k f).nextl = s.nextl := rfl
@[simp] theorem State.onSlice_launches (s : State) (k : Nat) (f : Slice → Slice) : (s.onSlice k f).launches = s.launches := rfl
@[simp] theorem State.onSlice_engines (s : State) (k : Nat) (f : Slice → Slice) : (s.onSlice k f).engines = s.engines := rfl
@[simp] theorem State.onSlice_ports (s : State) (k : Nat) (f : Slice → Slice) : (s.onSlice k f).ports = s.ports := rfl
@[simp] theorem State.onSlice_sysnum (s : State) (k : Nat) (f : Slice → Slice) : (s.onSlice k f).sysnum = s.sysnum := rfl
@[simp] theorem State.onSlice_routes (s : State) (k : Nat) (f : Slice → Slice) : (s.onSlice k f).routes = s.routes := rfl
@[simp] theorem State.onSlice_joints (s : State) (k : Nat) (f : Slice → Slice) : (s.onSlice k f).joints = s.joints := rfl
@[simp] theorem State.onSlice_collectors (s : State) (k : Nat) (f : Slice → Slice) : (s.onSlice k f).collectors = s.collectors := rfl
@[simp] theorem State.onSlice_spill (s : State) (k : Nat) (f : Slice → Slice) : (s.onSlice k f).spill = s.spill := rfl
@[simp] theorem State.onSlice_records (s : State) (k : Nat) (f : Slice → Slice) : (s.onSlice k f).records = s.records := rfl
@[simp] theorem State.onSlice_saved (s : State) (k : Nat) (f : Slice → Slice) : (s.onSlice k f).saved = s.saved := rfl
@[simp] theorem State.onSlice_timebase (s : State) (k : Nat) (f : Slice → Slice) : (s.onSlice k f).timebase = s.timebase := rfl
@[simp] theorem State.onSlice_timeRead (s : State) (k : Nat) (f : Slice → Slice) : (s.onSlice k f).timeRead = s.timeRead := rfl
@[simp] theorem State.onSlice_ptmFails (s : State) (k : Nat) (f : Slice → Slice) : (s.onSlice k f).ptmFails = s.ptmFails := rfl
@[simp] theorem State.onSlice_ptmDone (s : State) (k : Nat) (f : Slice → Slice) : (s.onSlice k f).ptmDone = s.ptmDone := rfl
@[simp] theorem State.onSlice_ptmOffset (s : State) (k : Nat) (f : Slice → Slice) : (s.onSlice k f).ptmOffset = s.ptmOffset := rfl
@[simp] theorem State.onSlice_slewTime (s : State) (k : Nat) (f : Slice → Slice) : (s.onSlice k f).slewTime = s.slewTime := rfl
@[simp] theorem State.onSlice_clock (s : State) (k : Nat) (f : Slice → Slice) : (s.onSlice k f).clock = s.clock := rfl
@[simp] theorem State.onSlice_ptmAt (s : State) (k : Nat) (f : Slice → Slice) : (s.onSlice k f).ptmAt = s.ptmAt := rfl
@[simp] theorem State.onSlice_lvlAt (s : State) (k : Nat) (f : Slice → Slice) : (s.onSlice k f).lvlAt = s.lvlAt := rfl
@[simp] theorem State.onSlice_thermal (s : State) (k : Nat) (f : Slice → Slice) : (s.onSlice k f).thermal = s.thermal := rfl
@[simp] theorem State.onSlice_events (s : State) (k : Nat) (f : Slice → Slice) : (s.onSlice k f).events = s.events := rfl
@[simp] theorem State.onSlice_errs (s : State) (k : Nat) (f : Slice → Slice) : (s.onSlice k f).errs = s.errs := rfl
@[simp] theorem State.onSlice_thresholds (s : State) (k : Nat) (f : Slice → Slice) : (s.onSlice k f).thresholds = s.thresholds := rfl
@[simp] theorem State.onSlice_dev (s : State) (k : Nat) (f : Slice → Slice) : (s.onSlice k f).dev = s.dev := rfl
@[simp] theorem State.onSlice_halted (s : State) (k : Nat) (f : Slice → Slice) : (s.onSlice k f).halted = s.halted := rfl
@[simp] theorem State.onSlice_agenda (s : State) (k : Nat) (f : Slice → Slice) : (s.onSlice k f).agenda = s.agenda := rfl
@[simp] theorem State.onSlice_due (s : State) (k : Nat) (f : Slice → Slice) : (s.onSlice k f).due = s.due := rfl
@[simp] theorem State.onSlice_cur (s : State) (k : Nat) (f : Slice → Slice) : (s.onSlice k f).cur = s.cur := rfl
@[simp] theorem State.onSlice_lat (s : State) (k : Nat) (f : Slice → Slice) : (s.onSlice k f).lat = s.lat := rfl
@[simp] theorem State.onSlice_packet (s : State) (k : Nat) (f : Slice → Slice) : (s.onSlice k f).packet = s.packet := rfl
@[simp] theorem State.onSlice_draws (s : State) (k : Nat) (f : Slice → Slice) : (s.onSlice k f).draws = s.draws := rfl
@[simp] theorem State.onSlice_nextId (s : State) (k : Nat) (f : Slice → Slice) : (s.onSlice k f).nextId = s.nextId := rfl
@[simp] theorem State.onSlice_cycle (s : State) (k : Nat) (f : Slice → Slice) : (s.onSlice k f).cycle = s.cycle := rfl
@[simp] theorem State.onSlice_sent (s : State) (k : Nat) (f : Slice → Slice) : (s.onSlice k f).sent = s.sent := rfl
@[simp] theorem State.onSlice_heldFlits (s : State) (k : Nat) (f : Slice → Slice) : (s.onSlice k f).heldFlits = s.heldFlits := rfl
@[simp] theorem State.onSlice_tags (s : State) (k : Nat) (f : Slice → Slice) : (s.onSlice k f).tags = s.tags := rfl
@[simp] theorem State.onSlice_incoming (s : State) (k : Nat) (f : Slice → Slice) : (s.onSlice k f).incoming = s.incoming := rfl
@[simp] theorem State.onSlice_failedIn (s : State) (k : Nat) (f : Slice → Slice) : (s.onSlice k f).failedIn = s.failedIn := rfl
@[simp] theorem State.onSlice_order (s : State) (k : Nat) (f : Slice → Slice) : (s.onSlice k f).order = s.order := rfl
@[simp] theorem State.onSlice_out (s : State) (k : Nat) (f : Slice → Slice) : (s.onSlice k f).out = s.out := rfl

/-! ## State.onPort -/

@[simp] theorem State.onPort_cores (s : State) (p : Nat) (f : Port → Port) : (s.onPort p f).cores = s.cores := rfl
@[simp] theorem State.onPort_slices (s : State) (p : Nat) (f : Port → Port) : (s.onPort p f).slices = s.slices := rfl
@[simp] theorem State.onPort_mem (s : State) (p : Nat) (f : Port → Port) : (s.onPort p f).mem = s.mem := rfl
@[simp] theorem State.onPort_undo (s : State) (p : Nat) (f : Port → Port) : (s.onPort p f).undo = s.undo := rfl
@[simp] theorem State.onPort_poison (s : State) (p : Nat) (f : Port → Port) : (s.onPort p f).poison = s.poison := rfl
@[simp] theorem State.onPort_rels (s : State) (p : Nat) (f : Port → Port) : (s.onPort p f).rels = s.rels := rfl
@[simp] theorem State.onPort_hostMem (s : State) (p : Nat) (f : Port → Port) : (s.onPort p f).hostMem = s.hostMem := rfl
@[simp] theorem State.onPort_agent (s : State) (p : Nat) (f : Port → Port) : (s.onPort p f).agent = s.agent := rfl
@[simp] theorem State.onPort_tlb (s : State) (p : Nat) (f : Port → Port) : (s.onPort p f).tlb = s.tlb := rfl
@[simp] theorem State.onPort_migs (s : State) (p : Nat) (f : Port → Port) : (s.onPort p f).migs = s.migs := rfl
@[simp] theorem State.onPort_tlbinvs (s : State) (p : Nat) (f : Port → Port) : (s.onPort p f).tlbinvs = s.tlbinvs := rfl
@[simp] theorem State.onPort_larder (s : State) (p : Nat) (f : Port → Port) : (s.onPort p f).larder = s.larder := rfl
@[simp] theorem State.onPort_ldcfg (s : State) (p : Nat) (f : Port → Port) : (s.onPort p f).ldcfg = s.ldcfg := rfl
@[simp] theorem State.onPort_builds (s : State) (p : Nat) (f : Port → Port) : (s.onPort p f).builds = s.builds := rfl
@[simp] theorem State.onPort_nextl (s : State) (p : Nat) (f : Port → Port) : (s.onPort p f).nextl = s.nextl := rfl
@[simp] theorem State.onPort_launches (s : State) (p : Nat) (f : Port → Port) : (s.onPort p f).launches = s.launches := rfl
@[simp] theorem State.onPort_engines (s : State) (p : Nat) (f : Port → Port) : (s.onPort p f).engines = s.engines := rfl
@[simp] theorem State.onPort_ports (s : State) (p : Nat) (f : Port → Port) : (s.onPort p f).ports = aput s.ports p (f (s.port p)) := rfl
@[simp] theorem State.onPort_sysnum (s : State) (p : Nat) (f : Port → Port) : (s.onPort p f).sysnum = s.sysnum := rfl
@[simp] theorem State.onPort_routes (s : State) (p : Nat) (f : Port → Port) : (s.onPort p f).routes = s.routes := rfl
@[simp] theorem State.onPort_joints (s : State) (p : Nat) (f : Port → Port) : (s.onPort p f).joints = s.joints := rfl
@[simp] theorem State.onPort_collectors (s : State) (p : Nat) (f : Port → Port) : (s.onPort p f).collectors = s.collectors := rfl
@[simp] theorem State.onPort_spill (s : State) (p : Nat) (f : Port → Port) : (s.onPort p f).spill = s.spill := rfl
@[simp] theorem State.onPort_records (s : State) (p : Nat) (f : Port → Port) : (s.onPort p f).records = s.records := rfl
@[simp] theorem State.onPort_saved (s : State) (p : Nat) (f : Port → Port) : (s.onPort p f).saved = s.saved := rfl
@[simp] theorem State.onPort_timebase (s : State) (p : Nat) (f : Port → Port) : (s.onPort p f).timebase = s.timebase := rfl
@[simp] theorem State.onPort_timeRead (s : State) (p : Nat) (f : Port → Port) : (s.onPort p f).timeRead = s.timeRead := rfl
@[simp] theorem State.onPort_ptmFails (s : State) (p : Nat) (f : Port → Port) : (s.onPort p f).ptmFails = s.ptmFails := rfl
@[simp] theorem State.onPort_ptmDone (s : State) (p : Nat) (f : Port → Port) : (s.onPort p f).ptmDone = s.ptmDone := rfl
@[simp] theorem State.onPort_ptmOffset (s : State) (p : Nat) (f : Port → Port) : (s.onPort p f).ptmOffset = s.ptmOffset := rfl
@[simp] theorem State.onPort_slewTime (s : State) (p : Nat) (f : Port → Port) : (s.onPort p f).slewTime = s.slewTime := rfl
@[simp] theorem State.onPort_clock (s : State) (p : Nat) (f : Port → Port) : (s.onPort p f).clock = s.clock := rfl
@[simp] theorem State.onPort_ptmAt (s : State) (p : Nat) (f : Port → Port) : (s.onPort p f).ptmAt = s.ptmAt := rfl
@[simp] theorem State.onPort_lvlAt (s : State) (p : Nat) (f : Port → Port) : (s.onPort p f).lvlAt = s.lvlAt := rfl
@[simp] theorem State.onPort_thermal (s : State) (p : Nat) (f : Port → Port) : (s.onPort p f).thermal = s.thermal := rfl
@[simp] theorem State.onPort_events (s : State) (p : Nat) (f : Port → Port) : (s.onPort p f).events = s.events := rfl
@[simp] theorem State.onPort_errs (s : State) (p : Nat) (f : Port → Port) : (s.onPort p f).errs = s.errs := rfl
@[simp] theorem State.onPort_thresholds (s : State) (p : Nat) (f : Port → Port) : (s.onPort p f).thresholds = s.thresholds := rfl
@[simp] theorem State.onPort_dev (s : State) (p : Nat) (f : Port → Port) : (s.onPort p f).dev = s.dev := rfl
@[simp] theorem State.onPort_halted (s : State) (p : Nat) (f : Port → Port) : (s.onPort p f).halted = s.halted := rfl
@[simp] theorem State.onPort_agenda (s : State) (p : Nat) (f : Port → Port) : (s.onPort p f).agenda = s.agenda := rfl
@[simp] theorem State.onPort_due (s : State) (p : Nat) (f : Port → Port) : (s.onPort p f).due = s.due := rfl
@[simp] theorem State.onPort_cur (s : State) (p : Nat) (f : Port → Port) : (s.onPort p f).cur = s.cur := rfl
@[simp] theorem State.onPort_lat (s : State) (p : Nat) (f : Port → Port) : (s.onPort p f).lat = s.lat := rfl
@[simp] theorem State.onPort_packet (s : State) (p : Nat) (f : Port → Port) : (s.onPort p f).packet = s.packet := rfl
@[simp] theorem State.onPort_draws (s : State) (p : Nat) (f : Port → Port) : (s.onPort p f).draws = s.draws := rfl
@[simp] theorem State.onPort_nextId (s : State) (p : Nat) (f : Port → Port) : (s.onPort p f).nextId = s.nextId := rfl
@[simp] theorem State.onPort_cycle (s : State) (p : Nat) (f : Port → Port) : (s.onPort p f).cycle = s.cycle := rfl
@[simp] theorem State.onPort_sent (s : State) (p : Nat) (f : Port → Port) : (s.onPort p f).sent = s.sent := rfl
@[simp] theorem State.onPort_heldFlits (s : State) (p : Nat) (f : Port → Port) : (s.onPort p f).heldFlits = s.heldFlits := rfl
@[simp] theorem State.onPort_tags (s : State) (p : Nat) (f : Port → Port) : (s.onPort p f).tags = s.tags := rfl
@[simp] theorem State.onPort_incoming (s : State) (p : Nat) (f : Port → Port) : (s.onPort p f).incoming = s.incoming := rfl
@[simp] theorem State.onPort_failedIn (s : State) (p : Nat) (f : Port → Port) : (s.onPort p f).failedIn = s.failedIn := rfl
@[simp] theorem State.onPort_order (s : State) (p : Nat) (f : Port → Port) : (s.onPort p f).order = s.order := rfl
@[simp] theorem State.onPort_out (s : State) (p : Nat) (f : Port → Port) : (s.onPort p f).out = s.out := rfl

/-! ## State.onLentry -/

@[simp] theorem State.onLentry_cores (s : State) (e : Nat) (f : LEntry → LEntry) : (s.onLentry e f).cores = s.cores := rfl
@[simp] theorem State.onLentry_slices (s : State) (e : Nat) (f : LEntry → LEntry) : (s.onLentry e f).slices = s.slices := rfl
@[simp] theorem State.onLentry_mem (s : State) (e : Nat) (f : LEntry → LEntry) : (s.onLentry e f).mem = s.mem := rfl
@[simp] theorem State.onLentry_undo (s : State) (e : Nat) (f : LEntry → LEntry) : (s.onLentry e f).undo = s.undo := rfl
@[simp] theorem State.onLentry_poison (s : State) (e : Nat) (f : LEntry → LEntry) : (s.onLentry e f).poison = s.poison := rfl
@[simp] theorem State.onLentry_rels (s : State) (e : Nat) (f : LEntry → LEntry) : (s.onLentry e f).rels = s.rels := rfl
@[simp] theorem State.onLentry_hostMem (s : State) (e : Nat) (f : LEntry → LEntry) : (s.onLentry e f).hostMem = s.hostMem := rfl
@[simp] theorem State.onLentry_agent (s : State) (e : Nat) (f : LEntry → LEntry) : (s.onLentry e f).agent = s.agent := rfl
@[simp] theorem State.onLentry_tlb (s : State) (e : Nat) (f : LEntry → LEntry) : (s.onLentry e f).tlb = s.tlb := rfl
@[simp] theorem State.onLentry_migs (s : State) (e : Nat) (f : LEntry → LEntry) : (s.onLentry e f).migs = s.migs := rfl
@[simp] theorem State.onLentry_tlbinvs (s : State) (e : Nat) (f : LEntry → LEntry) : (s.onLentry e f).tlbinvs = s.tlbinvs := rfl
@[simp] theorem State.onLentry_larder (s : State) (e : Nat) (f : LEntry → LEntry) : (s.onLentry e f).larder = aput s.larder e (f (s.lentry e)) := rfl
@[simp] theorem State.onLentry_ldcfg (s : State) (e : Nat) (f : LEntry → LEntry) : (s.onLentry e f).ldcfg = s.ldcfg := rfl
@[simp] theorem State.onLentry_builds (s : State) (e : Nat) (f : LEntry → LEntry) : (s.onLentry e f).builds = s.builds := rfl
@[simp] theorem State.onLentry_nextl (s : State) (e : Nat) (f : LEntry → LEntry) : (s.onLentry e f).nextl = s.nextl := rfl
@[simp] theorem State.onLentry_launches (s : State) (e : Nat) (f : LEntry → LEntry) : (s.onLentry e f).launches = s.launches := rfl
@[simp] theorem State.onLentry_engines (s : State) (e : Nat) (f : LEntry → LEntry) : (s.onLentry e f).engines = s.engines := rfl
@[simp] theorem State.onLentry_ports (s : State) (e : Nat) (f : LEntry → LEntry) : (s.onLentry e f).ports = s.ports := rfl
@[simp] theorem State.onLentry_sysnum (s : State) (e : Nat) (f : LEntry → LEntry) : (s.onLentry e f).sysnum = s.sysnum := rfl
@[simp] theorem State.onLentry_routes (s : State) (e : Nat) (f : LEntry → LEntry) : (s.onLentry e f).routes = s.routes := rfl
@[simp] theorem State.onLentry_joints (s : State) (e : Nat) (f : LEntry → LEntry) : (s.onLentry e f).joints = s.joints := rfl
@[simp] theorem State.onLentry_collectors (s : State) (e : Nat) (f : LEntry → LEntry) : (s.onLentry e f).collectors = s.collectors := rfl
@[simp] theorem State.onLentry_spill (s : State) (e : Nat) (f : LEntry → LEntry) : (s.onLentry e f).spill = s.spill := rfl
@[simp] theorem State.onLentry_records (s : State) (e : Nat) (f : LEntry → LEntry) : (s.onLentry e f).records = s.records := rfl
@[simp] theorem State.onLentry_saved (s : State) (e : Nat) (f : LEntry → LEntry) : (s.onLentry e f).saved = s.saved := rfl
@[simp] theorem State.onLentry_timebase (s : State) (e : Nat) (f : LEntry → LEntry) : (s.onLentry e f).timebase = s.timebase := rfl
@[simp] theorem State.onLentry_timeRead (s : State) (e : Nat) (f : LEntry → LEntry) : (s.onLentry e f).timeRead = s.timeRead := rfl
@[simp] theorem State.onLentry_ptmFails (s : State) (e : Nat) (f : LEntry → LEntry) : (s.onLentry e f).ptmFails = s.ptmFails := rfl
@[simp] theorem State.onLentry_ptmDone (s : State) (e : Nat) (f : LEntry → LEntry) : (s.onLentry e f).ptmDone = s.ptmDone := rfl
@[simp] theorem State.onLentry_ptmOffset (s : State) (e : Nat) (f : LEntry → LEntry) : (s.onLentry e f).ptmOffset = s.ptmOffset := rfl
@[simp] theorem State.onLentry_slewTime (s : State) (e : Nat) (f : LEntry → LEntry) : (s.onLentry e f).slewTime = s.slewTime := rfl
@[simp] theorem State.onLentry_clock (s : State) (e : Nat) (f : LEntry → LEntry) : (s.onLentry e f).clock = s.clock := rfl
@[simp] theorem State.onLentry_ptmAt (s : State) (e : Nat) (f : LEntry → LEntry) : (s.onLentry e f).ptmAt = s.ptmAt := rfl
@[simp] theorem State.onLentry_lvlAt (s : State) (e : Nat) (f : LEntry → LEntry) : (s.onLentry e f).lvlAt = s.lvlAt := rfl
@[simp] theorem State.onLentry_thermal (s : State) (e : Nat) (f : LEntry → LEntry) : (s.onLentry e f).thermal = s.thermal := rfl
@[simp] theorem State.onLentry_events (s : State) (e : Nat) (f : LEntry → LEntry) : (s.onLentry e f).events = s.events := rfl
@[simp] theorem State.onLentry_errs (s : State) (e : Nat) (f : LEntry → LEntry) : (s.onLentry e f).errs = s.errs := rfl
@[simp] theorem State.onLentry_thresholds (s : State) (e : Nat) (f : LEntry → LEntry) : (s.onLentry e f).thresholds = s.thresholds := rfl
@[simp] theorem State.onLentry_dev (s : State) (e : Nat) (f : LEntry → LEntry) : (s.onLentry e f).dev = s.dev := rfl
@[simp] theorem State.onLentry_halted (s : State) (e : Nat) (f : LEntry → LEntry) : (s.onLentry e f).halted = s.halted := rfl
@[simp] theorem State.onLentry_agenda (s : State) (e : Nat) (f : LEntry → LEntry) : (s.onLentry e f).agenda = s.agenda := rfl
@[simp] theorem State.onLentry_due (s : State) (e : Nat) (f : LEntry → LEntry) : (s.onLentry e f).due = s.due := rfl
@[simp] theorem State.onLentry_cur (s : State) (e : Nat) (f : LEntry → LEntry) : (s.onLentry e f).cur = s.cur := rfl
@[simp] theorem State.onLentry_lat (s : State) (e : Nat) (f : LEntry → LEntry) : (s.onLentry e f).lat = s.lat := rfl
@[simp] theorem State.onLentry_packet (s : State) (e : Nat) (f : LEntry → LEntry) : (s.onLentry e f).packet = s.packet := rfl
@[simp] theorem State.onLentry_draws (s : State) (e : Nat) (f : LEntry → LEntry) : (s.onLentry e f).draws = s.draws := rfl
@[simp] theorem State.onLentry_nextId (s : State) (e : Nat) (f : LEntry → LEntry) : (s.onLentry e f).nextId = s.nextId := rfl
@[simp] theorem State.onLentry_cycle (s : State) (e : Nat) (f : LEntry → LEntry) : (s.onLentry e f).cycle = s.cycle := rfl
@[simp] theorem State.onLentry_sent (s : State) (e : Nat) (f : LEntry → LEntry) : (s.onLentry e f).sent = s.sent := rfl
@[simp] theorem State.onLentry_heldFlits (s : State) (e : Nat) (f : LEntry → LEntry) : (s.onLentry e f).heldFlits = s.heldFlits := rfl
@[simp] theorem State.onLentry_tags (s : State) (e : Nat) (f : LEntry → LEntry) : (s.onLentry e f).tags = s.tags := rfl
@[simp] theorem State.onLentry_incoming (s : State) (e : Nat) (f : LEntry → LEntry) : (s.onLentry e f).incoming = s.incoming := rfl
@[simp] theorem State.onLentry_failedIn (s : State) (e : Nat) (f : LEntry → LEntry) : (s.onLentry e f).failedIn = s.failedIn := rfl
@[simp] theorem State.onLentry_order (s : State) (e : Nat) (f : LEntry → LEntry) : (s.onLentry e f).order = s.order := rfl
@[simp] theorem State.onLentry_out (s : State) (e : Nat) (f : LEntry → LEntry) : (s.onLentry e f).out = s.out := rfl

/-! ## State.emit -/

@[simp] theorem State.emit_cores (s : State) (p : Packet) : (s.emit p).cores = s.cores := rfl
@[simp] theorem State.emit_slices (s : State) (p : Packet) : (s.emit p).slices = s.slices := rfl
@[simp] theorem State.emit_mem (s : State) (p : Packet) : (s.emit p).mem = s.mem := rfl
@[simp] theorem State.emit_undo (s : State) (p : Packet) : (s.emit p).undo = s.undo := rfl
@[simp] theorem State.emit_poison (s : State) (p : Packet) : (s.emit p).poison = s.poison := rfl
@[simp] theorem State.emit_rels (s : State) (p : Packet) : (s.emit p).rels = s.rels := rfl
@[simp] theorem State.emit_hostMem (s : State) (p : Packet) : (s.emit p).hostMem = s.hostMem := rfl
@[simp] theorem State.emit_agent (s : State) (p : Packet) : (s.emit p).agent = s.agent := rfl
@[simp] theorem State.emit_tlb (s : State) (p : Packet) : (s.emit p).tlb = s.tlb := rfl
@[simp] theorem State.emit_migs (s : State) (p : Packet) : (s.emit p).migs = s.migs := rfl
@[simp] theorem State.emit_tlbinvs (s : State) (p : Packet) : (s.emit p).tlbinvs = s.tlbinvs := rfl
@[simp] theorem State.emit_larder (s : State) (p : Packet) : (s.emit p).larder = s.larder := rfl
@[simp] theorem State.emit_ldcfg (s : State) (p : Packet) : (s.emit p).ldcfg = s.ldcfg := rfl
@[simp] theorem State.emit_builds (s : State) (p : Packet) : (s.emit p).builds = s.builds := rfl
@[simp] theorem State.emit_nextl (s : State) (p : Packet) : (s.emit p).nextl = s.nextl := rfl
@[simp] theorem State.emit_launches (s : State) (p : Packet) : (s.emit p).launches = s.launches := rfl
@[simp] theorem State.emit_engines (s : State) (p : Packet) : (s.emit p).engines = s.engines := rfl
@[simp] theorem State.emit_ports (s : State) (p : Packet) : (s.emit p).ports = s.ports := rfl
@[simp] theorem State.emit_sysnum (s : State) (p : Packet) : (s.emit p).sysnum = s.sysnum := rfl
@[simp] theorem State.emit_routes (s : State) (p : Packet) : (s.emit p).routes = s.routes := rfl
@[simp] theorem State.emit_joints (s : State) (p : Packet) : (s.emit p).joints = s.joints := rfl
@[simp] theorem State.emit_collectors (s : State) (p : Packet) : (s.emit p).collectors = s.collectors := rfl
@[simp] theorem State.emit_spill (s : State) (p : Packet) : (s.emit p).spill = s.spill := rfl
@[simp] theorem State.emit_records (s : State) (p : Packet) : (s.emit p).records = s.records := rfl
@[simp] theorem State.emit_saved (s : State) (p : Packet) : (s.emit p).saved = s.saved := rfl
@[simp] theorem State.emit_timebase (s : State) (p : Packet) : (s.emit p).timebase = s.timebase := rfl
@[simp] theorem State.emit_timeRead (s : State) (p : Packet) : (s.emit p).timeRead = s.timeRead := rfl
@[simp] theorem State.emit_ptmFails (s : State) (p : Packet) : (s.emit p).ptmFails = s.ptmFails := rfl
@[simp] theorem State.emit_ptmDone (s : State) (p : Packet) : (s.emit p).ptmDone = s.ptmDone := rfl
@[simp] theorem State.emit_ptmOffset (s : State) (p : Packet) : (s.emit p).ptmOffset = s.ptmOffset := rfl
@[simp] theorem State.emit_slewTime (s : State) (p : Packet) : (s.emit p).slewTime = s.slewTime := rfl
@[simp] theorem State.emit_clock (s : State) (p : Packet) : (s.emit p).clock = s.clock := rfl
@[simp] theorem State.emit_ptmAt (s : State) (p : Packet) : (s.emit p).ptmAt = s.ptmAt := rfl
@[simp] theorem State.emit_lvlAt (s : State) (p : Packet) : (s.emit p).lvlAt = s.lvlAt := rfl
@[simp] theorem State.emit_thermal (s : State) (p : Packet) : (s.emit p).thermal = s.thermal := rfl
@[simp] theorem State.emit_events (s : State) (p : Packet) : (s.emit p).events = s.events := rfl
@[simp] theorem State.emit_errs (s : State) (p : Packet) : (s.emit p).errs = s.errs := rfl
@[simp] theorem State.emit_thresholds (s : State) (p : Packet) : (s.emit p).thresholds = s.thresholds := rfl
@[simp] theorem State.emit_dev (s : State) (p : Packet) : (s.emit p).dev = s.dev := rfl
@[simp] theorem State.emit_halted (s : State) (p : Packet) : (s.emit p).halted = s.halted := rfl
@[simp] theorem State.emit_agenda (s : State) (p : Packet) : (s.emit p).agenda = s.agenda := rfl
@[simp] theorem State.emit_due (s : State) (p : Packet) : (s.emit p).due = s.due ++ [p] := rfl
@[simp] theorem State.emit_cur (s : State) (p : Packet) : (s.emit p).cur = s.cur := rfl
@[simp] theorem State.emit_lat (s : State) (p : Packet) : (s.emit p).lat = s.lat := rfl
@[simp] theorem State.emit_packet (s : State) (p : Packet) : (s.emit p).packet = s.packet := rfl
@[simp] theorem State.emit_draws (s : State) (p : Packet) : (s.emit p).draws = s.draws := rfl
@[simp] theorem State.emit_nextId (s : State) (p : Packet) : (s.emit p).nextId = s.nextId := rfl
@[simp] theorem State.emit_cycle (s : State) (p : Packet) : (s.emit p).cycle = s.cycle := rfl
@[simp] theorem State.emit_sent (s : State) (p : Packet) : (s.emit p).sent = s.sent := rfl
@[simp] theorem State.emit_heldFlits (s : State) (p : Packet) : (s.emit p).heldFlits = s.heldFlits := rfl
@[simp] theorem State.emit_tags (s : State) (p : Packet) : (s.emit p).tags = s.tags := rfl
@[simp] theorem State.emit_incoming (s : State) (p : Packet) : (s.emit p).incoming = s.incoming := rfl
@[simp] theorem State.emit_failedIn (s : State) (p : Packet) : (s.emit p).failedIn = s.failedIn := rfl
@[simp] theorem State.emit_order (s : State) (p : Packet) : (s.emit p).order = s.order := rfl
@[simp] theorem State.emit_out (s : State) (p : Packet) : (s.emit p).out = s.out := rfl

/-! ## State.fresh -/

@[simp] theorem State.fresh_cores (s : State) : (s.fresh).cores = s.cores := rfl
@[simp] theorem State.fresh_slices (s : State) : (s.fresh).slices = s.slices := rfl
@[simp] theorem State.fresh_mem (s : State) : (s.fresh).mem = s.mem := rfl
@[simp] theorem State.fresh_undo (s : State) : (s.fresh).undo = s.undo := rfl
@[simp] theorem State.fresh_poison (s : State) : (s.fresh).poison = s.poison := rfl
@[simp] theorem State.fresh_rels (s : State) : (s.fresh).rels = s.rels := rfl
@[simp] theorem State.fresh_hostMem (s : State) : (s.fresh).hostMem = s.hostMem := rfl
@[simp] theorem State.fresh_agent (s : State) : (s.fresh).agent = s.agent := rfl
@[simp] theorem State.fresh_tlb (s : State) : (s.fresh).tlb = s.tlb := rfl
@[simp] theorem State.fresh_migs (s : State) : (s.fresh).migs = s.migs := rfl
@[simp] theorem State.fresh_tlbinvs (s : State) : (s.fresh).tlbinvs = s.tlbinvs := rfl
@[simp] theorem State.fresh_larder (s : State) : (s.fresh).larder = s.larder := rfl
@[simp] theorem State.fresh_ldcfg (s : State) : (s.fresh).ldcfg = s.ldcfg := rfl
@[simp] theorem State.fresh_builds (s : State) : (s.fresh).builds = s.builds := rfl
@[simp] theorem State.fresh_nextl (s : State) : (s.fresh).nextl = s.nextl := rfl
@[simp] theorem State.fresh_launches (s : State) : (s.fresh).launches = s.launches := rfl
@[simp] theorem State.fresh_engines (s : State) : (s.fresh).engines = s.engines := rfl
@[simp] theorem State.fresh_ports (s : State) : (s.fresh).ports = s.ports := rfl
@[simp] theorem State.fresh_sysnum (s : State) : (s.fresh).sysnum = s.sysnum := rfl
@[simp] theorem State.fresh_routes (s : State) : (s.fresh).routes = s.routes := rfl
@[simp] theorem State.fresh_joints (s : State) : (s.fresh).joints = s.joints := rfl
@[simp] theorem State.fresh_collectors (s : State) : (s.fresh).collectors = s.collectors := rfl
@[simp] theorem State.fresh_spill (s : State) : (s.fresh).spill = s.spill := rfl
@[simp] theorem State.fresh_records (s : State) : (s.fresh).records = s.records := rfl
@[simp] theorem State.fresh_saved (s : State) : (s.fresh).saved = s.saved := rfl
@[simp] theorem State.fresh_timebase (s : State) : (s.fresh).timebase = s.timebase := rfl
@[simp] theorem State.fresh_timeRead (s : State) : (s.fresh).timeRead = s.timeRead := rfl
@[simp] theorem State.fresh_ptmFails (s : State) : (s.fresh).ptmFails = s.ptmFails := rfl
@[simp] theorem State.fresh_ptmDone (s : State) : (s.fresh).ptmDone = s.ptmDone := rfl
@[simp] theorem State.fresh_ptmOffset (s : State) : (s.fresh).ptmOffset = s.ptmOffset := rfl
@[simp] theorem State.fresh_slewTime (s : State) : (s.fresh).slewTime = s.slewTime := rfl
@[simp] theorem State.fresh_clock (s : State) : (s.fresh).clock = s.clock := rfl
@[simp] theorem State.fresh_ptmAt (s : State) : (s.fresh).ptmAt = s.ptmAt := rfl
@[simp] theorem State.fresh_lvlAt (s : State) : (s.fresh).lvlAt = s.lvlAt := rfl
@[simp] theorem State.fresh_thermal (s : State) : (s.fresh).thermal = s.thermal := rfl
@[simp] theorem State.fresh_events (s : State) : (s.fresh).events = s.events := rfl
@[simp] theorem State.fresh_errs (s : State) : (s.fresh).errs = s.errs := rfl
@[simp] theorem State.fresh_thresholds (s : State) : (s.fresh).thresholds = s.thresholds := rfl
@[simp] theorem State.fresh_dev (s : State) : (s.fresh).dev = s.dev := rfl
@[simp] theorem State.fresh_halted (s : State) : (s.fresh).halted = s.halted := rfl
@[simp] theorem State.fresh_agenda (s : State) : (s.fresh).agenda = s.agenda := rfl
@[simp] theorem State.fresh_due (s : State) : (s.fresh).due = s.due := rfl
@[simp] theorem State.fresh_cur (s : State) : (s.fresh).cur = s.cur := rfl
@[simp] theorem State.fresh_lat (s : State) : (s.fresh).lat = s.lat := rfl
@[simp] theorem State.fresh_packet (s : State) : (s.fresh).packet = s.packet := rfl
@[simp] theorem State.fresh_draws (s : State) : (s.fresh).draws = s.draws := rfl
@[simp] theorem State.fresh_nextId (s : State) : (s.fresh).nextId = s.nextId + 1 := rfl
@[simp] theorem State.fresh_cycle (s : State) : (s.fresh).cycle = s.cycle := rfl
@[simp] theorem State.fresh_sent (s : State) : (s.fresh).sent = s.sent := rfl
@[simp] theorem State.fresh_heldFlits (s : State) : (s.fresh).heldFlits = s.heldFlits := rfl
@[simp] theorem State.fresh_tags (s : State) : (s.fresh).tags = s.tags := rfl
@[simp] theorem State.fresh_incoming (s : State) : (s.fresh).incoming = s.incoming := rfl
@[simp] theorem State.fresh_failedIn (s : State) : (s.fresh).failedIn = s.failedIn := rfl
@[simp] theorem State.fresh_order (s : State) : (s.fresh).order = s.order := rfl
@[simp] theorem State.fresh_out (s : State) : (s.fresh).out = s.out := rfl

/-! ## State.count -/

@[simp] theorem State.count_cores (s : State) (e : Nat) : (s.count e).cores = s.cores := rfl
@[simp] theorem State.count_slices (s : State) (e : Nat) : (s.count e).slices = s.slices := rfl
@[simp] theorem State.count_mem (s : State) (e : Nat) : (s.count e).mem = s.mem := rfl
@[simp] theorem State.count_undo (s : State) (e : Nat) : (s.count e).undo = s.undo := rfl
@[simp] theorem State.count_poison (s : State) (e : Nat) : (s.count e).poison = s.poison := rfl
@[simp] theorem State.count_rels (s : State) (e : Nat) : (s.count e).rels = s.rels := rfl
@[simp] theorem State.count_hostMem (s : State) (e : Nat) : (s.count e).hostMem = s.hostMem := rfl
@[simp] theorem State.count_agent (s : State) (e : Nat) : (s.count e).agent = s.agent := rfl
@[simp] theorem State.count_tlb (s : State) (e : Nat) : (s.count e).tlb = s.tlb := rfl
@[simp] theorem State.count_migs (s : State) (e : Nat) : (s.count e).migs = s.migs := rfl
@[simp] theorem State.count_tlbinvs (s : State) (e : Nat) : (s.count e).tlbinvs = s.tlbinvs := rfl
@[simp] theorem State.count_larder (s : State) (e : Nat) : (s.count e).larder = s.larder := rfl
@[simp] theorem State.count_ldcfg (s : State) (e : Nat) : (s.count e).ldcfg = s.ldcfg := rfl
@[simp] theorem State.count_builds (s : State) (e : Nat) : (s.count e).builds = s.builds := rfl
@[simp] theorem State.count_nextl (s : State) (e : Nat) : (s.count e).nextl = s.nextl := rfl
@[simp] theorem State.count_launches (s : State) (e : Nat) : (s.count e).launches = s.launches := rfl
@[simp] theorem State.count_engines (s : State) (e : Nat) : (s.count e).engines = s.engines := rfl
@[simp] theorem State.count_ports (s : State) (e : Nat) : (s.count e).ports = s.ports := rfl
@[simp] theorem State.count_sysnum (s : State) (e : Nat) : (s.count e).sysnum = s.sysnum := rfl
@[simp] theorem State.count_routes (s : State) (e : Nat) : (s.count e).routes = s.routes := rfl
@[simp] theorem State.count_joints (s : State) (e : Nat) : (s.count e).joints = s.joints := rfl
@[simp] theorem State.count_collectors (s : State) (e : Nat) : (s.count e).collectors = s.collectors := rfl
@[simp] theorem State.count_spill (s : State) (e : Nat) : (s.count e).spill = s.spill := rfl
@[simp] theorem State.count_records (s : State) (e : Nat) : (s.count e).records = s.records := rfl
@[simp] theorem State.count_saved (s : State) (e : Nat) : (s.count e).saved = s.saved := rfl
@[simp] theorem State.count_timebase (s : State) (e : Nat) : (s.count e).timebase = s.timebase := rfl
@[simp] theorem State.count_timeRead (s : State) (e : Nat) : (s.count e).timeRead = s.timeRead := rfl
@[simp] theorem State.count_ptmFails (s : State) (e : Nat) : (s.count e).ptmFails = s.ptmFails := rfl
@[simp] theorem State.count_ptmDone (s : State) (e : Nat) : (s.count e).ptmDone = s.ptmDone := rfl
@[simp] theorem State.count_ptmOffset (s : State) (e : Nat) : (s.count e).ptmOffset = s.ptmOffset := rfl
@[simp] theorem State.count_slewTime (s : State) (e : Nat) : (s.count e).slewTime = s.slewTime := rfl
@[simp] theorem State.count_clock (s : State) (e : Nat) : (s.count e).clock = s.clock := rfl
@[simp] theorem State.count_ptmAt (s : State) (e : Nat) : (s.count e).ptmAt = s.ptmAt := rfl
@[simp] theorem State.count_lvlAt (s : State) (e : Nat) : (s.count e).lvlAt = s.lvlAt := rfl
@[simp] theorem State.count_thermal (s : State) (e : Nat) : (s.count e).thermal = s.thermal := rfl
@[simp] theorem State.count_events (s : State) (e : Nat) : (s.count e).events = aput s.events e (aget s.events e 0 + 1) := rfl
@[simp] theorem State.count_errs (s : State) (e : Nat) : (s.count e).errs = s.errs := rfl
@[simp] theorem State.count_thresholds (s : State) (e : Nat) : (s.count e).thresholds = s.thresholds := rfl
@[simp] theorem State.count_dev (s : State) (e : Nat) : (s.count e).dev = s.dev := rfl
@[simp] theorem State.count_halted (s : State) (e : Nat) : (s.count e).halted = s.halted := rfl
@[simp] theorem State.count_agenda (s : State) (e : Nat) : (s.count e).agenda = s.agenda := rfl
@[simp] theorem State.count_due (s : State) (e : Nat) : (s.count e).due = s.due := rfl
@[simp] theorem State.count_cur (s : State) (e : Nat) : (s.count e).cur = s.cur := rfl
@[simp] theorem State.count_lat (s : State) (e : Nat) : (s.count e).lat = s.lat := rfl
@[simp] theorem State.count_packet (s : State) (e : Nat) : (s.count e).packet = s.packet := rfl
@[simp] theorem State.count_draws (s : State) (e : Nat) : (s.count e).draws = s.draws := rfl
@[simp] theorem State.count_nextId (s : State) (e : Nat) : (s.count e).nextId = s.nextId := rfl
@[simp] theorem State.count_cycle (s : State) (e : Nat) : (s.count e).cycle = s.cycle := rfl
@[simp] theorem State.count_sent (s : State) (e : Nat) : (s.count e).sent = s.sent := rfl
@[simp] theorem State.count_heldFlits (s : State) (e : Nat) : (s.count e).heldFlits = s.heldFlits := rfl
@[simp] theorem State.count_tags (s : State) (e : Nat) : (s.count e).tags = s.tags := rfl
@[simp] theorem State.count_incoming (s : State) (e : Nat) : (s.count e).incoming = s.incoming := rfl
@[simp] theorem State.count_failedIn (s : State) (e : Nat) : (s.count e).failedIn = s.failedIn := rfl
@[simp] theorem State.count_order (s : State) (e : Nat) : (s.count e).order = s.order := rfl
@[simp] theorem State.count_out (s : State) (e : Nat) : (s.count e).out = s.out := rfl

/-! ## Units after an update -/

@[simp] theorem State.core_onCore (s : State) (c : Nat) (f : Core → Core) : (s.onCore c f).core c = f (s.core c) := by
  simp [State.core, State.onCore]
theorem State.core_onCore_other (s : State) (c d : Nat) (f : Core → Core) (h : d ≠ c) : (s.onCore c f).core d = s.core d :=
  aget_aput_other _ _ _ _ _ h
@[simp] theorem State.onCore_onCore (s : State) (c : Nat) (f g : Core → Core) :
    (s.onCore c f).onCore c g = s.onCore c (fun k => g (f k)) := by
  simp [State.onCore, State.core]

@[simp] theorem State.strand_onStrand (s : State) (c t : Nat) (f : Strand → Strand) :
    (s.onStrand c t f).strand c t = f (s.strand c t) := by
  simp [State.strand, State.onStrand]
theorem State.strand_onStrand_other (s : State) (c t d u : Nat) (f : Strand → Strand) (h : ¬(d = c ∧ u = t)) :
    (s.onStrand c t f).strand d u = s.strand d u := by
  by_cases hd : d = c
  · subst hd
    have hu : u ≠ t := fun e => h ⟨rfl, e⟩
    simp [State.strand, State.onStrand, aget_aput_other _ _ _ _ _ hu]
  · simp [State.strand, State.onStrand, State.core_onCore_other _ _ _ _ hd]
theorem State.core_onStrand_other (s : State) (c t d : Nat) (f : Strand → Strand) (h : d ≠ c) :
    (s.onStrand c t f).core d = s.core d := State.core_onCore_other s c d _ h
/-- An update of a strand is one of its core's strand table. -/
theorem State.core_onStrand (s : State) (c t : Nat) (f : Strand → Strand) :
    (s.onStrand c t f).core c = { s.core c with strands := aput (s.core c).strands t (f (s.strand c t)) } :=
  State.core_onCore s c _

@[simp] theorem State.strand_onBlock (s : State) (c t : Nat) (f : Block → Block) :
    (s.onBlock c t f).strand c t = { s.strand c t with block := (s.strand c t).block.map f } :=
  State.strand_onStrand s c t _
theorem State.strand_onBlock_other (s : State) (c t d u : Nat) (f : Block → Block) (h : ¬(d = c ∧ u = t)) :
    (s.onBlock c t f).strand d u = s.strand d u := State.strand_onStrand_other s c t d u _ h

@[simp] theorem State.slice_onSlice (s : State) (k : Nat) (f : Slice → Slice) : (s.onSlice k f).slice k = f (s.slice k) := by
  simp [State.slice, State.onSlice]
theorem State.slice_onSlice_other (s : State) (k l : Nat) (f : Slice → Slice) (h : l ≠ k) :
    (s.onSlice k f).slice l = s.slice l := aget_aput_other _ _ _ _ _ h
@[simp] theorem State.port_onPort (s : State) (p : Nat) (f : Port → Port) : (s.onPort p f).port p = f (s.port p) := by
  simp [State.port, State.onPort]
theorem State.port_onPort_other (s : State) (p q : Nat) (f : Port → Port) (h : q ≠ p) : (s.onPort p f).port q = s.port q :=
  aget_aput_other _ _ _ _ _ h
@[simp] theorem State.lentry_onLentry (s : State) (e : Nat) (f : LEntry → LEntry) :
    (s.onLentry e f).lentry e = f (s.lentry e) := by
  simp [State.lentry, State.onLentry]
theorem State.lentry_onLentry_other (s : State) (e d : Nat) (f : LEntry → LEntry) (h : d ≠ e) :
    (s.onLentry e f).lentry d = s.lentry d := aget_aput_other _ _ _ _ _ h
@[simp] theorem State.lvt_onLvt (s : State) (c l : Nat) (f : LVer → LVer) : (s.onLvt c l f).lvt c l = f (s.lvt c l) := by
  simp [State.lvt, State.onLvt]
@[simp] theorem State.chan_onChan (s : State) (c d : Nat) (f : Chan → Chan) :
    ((s.onChan c d f).core c).chan d = f ((s.core c).chan d) := by
  simp [State.onChan, Core.chan]

/-- An update of a strand that does not touch its core's Loft leaves every Loft. -/
@[simp] theorem State.loft_onStrand (s : State) (c t d : Nat) (f : Strand → Strand) :
    ((s.onStrand c t f).core d).loft = (s.core d).loft := by
  by_cases h : d = c
  · subst h; simp [State.core_onStrand]
  · simp [State.core_onStrand_other _ _ _ _ _ h]
@[simp] theorem State.loft_onBlock (s : State) (c t d : Nat) (f : Block → Block) :
    ((s.onBlock c t f).core d).loft = (s.core d).loft := State.loft_onStrand s c t d _

end Sys2Proof.Machine
end

