-- ==== Sys2Proof/Laws/Memory.lean ====
section
/-! SUPPORT. What every operation on memory keeps: the canonical form of device and host memory, and the bytes that it does
not write. -/

namespace Sys2Proof.Machine

/-! ## Operations that write no byte of memory -/

@[simp] theorem warn_mem (s : State) (k i d : Nat) : (warn s k i d).mem = s.mem := by unfold warn; dsimp only; split <;> simp
@[simp] theorem warn_hostMem (s : State) (k i d : Nat) : (warn s k i d).hostMem = s.hostMem := by unfold warn; dsimp only; split <;> simp
@[simp] theorem sliceUe_mem (s : State) (k : Nat) : (sliceUe s k).mem = s.mem := by unfold sliceUe; dsimp only; split <;> simp
@[simp] theorem sliceUe_hostMem (s : State) (k : Nat) : (sliceUe s k).hostMem = s.hostMem := by unfold sliceUe; dsimp only; split <;> simp
@[simp] theorem srcUe_mem (s : State) (k i d : Nat) : (srcUe s k i d).mem = s.mem := by unfold srcUe; dsimp only; split <;> simp
@[simp] theorem srcUe_hostMem (s : State) (k i d : Nat) : (srcUe s k i d).hostMem = s.hostMem := by
  unfold srcUe; dsimp only; split <;> simp
@[simp] theorem dataUe_mem (s : State) (k : Nat) : (dataUe s k).mem = s.mem := by
  unfold dataUe State.drawBit State.drawBelow; dsimp only; split <;> simp
@[simp] theorem dataUe_hostMem (s : State) (k : Nat) : (dataUe s k).hostMem = s.hostMem := by
  unfold dataUe State.drawBit State.drawBelow; dsimp only; split <;> simp
@[simp] theorem mayCache_mem (s : State) (a : Nat) : (mayCache s a).mem = s.mem := by
  unfold mayCache; dsimp only; (repeat' split) <;> simp
@[simp] theorem mayCache_hostMem (s : State) (a : Nat) : (mayCache s a).hostMem = s.hostMem := by
  unfold mayCache; dsimp only; (repeat' split) <;> simp
@[simp] theorem sliceCe_mem (s : State) (k : Nat) : (sliceCe s k).mem = s.mem := by unfold sliceCe; dsimp only; split <;> simp
@[simp] theorem sliceCe_hostMem (s : State) (k : Nat) : (sliceCe s k).hostMem = s.hostMem := by unfold sliceCe; dsimp only; split <;> simp
@[simp] theorem srcCe_mem (s : State) (k i d : Nat) : (srcCe s k i d).mem = s.mem := by unfold srcCe; dsimp only; split <;> simp
@[simp] theorem srcCe_hostMem (s : State) (k i d : Nat) : (srcCe s k i d).hostMem = s.hostMem := by
  unfold srcCe; dsimp only; split <;> simp
@[simp] theorem hostErr_mem (s : State) (ue : Bool) : (hostErr s ue).mem = s.mem := by
  unfold hostErr State.drawBit State.drawBelow; dsimp only; split <;> simp
@[simp] theorem hostErr_hostMem (s : State) (ue : Bool) : (hostErr s ue).hostMem = s.hostMem := by
  unfold hostErr State.drawBit State.drawBelow; dsimp only; split <;> simp
@[simp] theorem cleanRange_mem (s : State) (a n : Nat) : (cleanRange s a n).mem = s.mem := rfl
@[simp] theorem hostWrite_mem (s : State) (a : Nat) (d : List (Option Byte)) : (hostWrite s a d).mem = s.mem := rfl
@[simp] theorem hostWrite_hostMem (s : State) (a : Nat) (d : List (Option Byte)) :
    (hostWrite s a d).hostMem = s.hostMem := rfl
@[simp] theorem loftWrite_mem (s : State) (c a : Nat) (d : List (Option Byte)) : (loftWrite s c a d).mem = s.mem := rfl
@[simp] theorem loftWrite_hostMem (s : State) (c a : Nat) (d : List (Option Byte)) :
    (loftWrite s c a d).hostMem = s.hostMem := rfl
@[simp] theorem sendFlit_mem (s : State) (f : Flit) : (sendFlit s f).mem = s.mem := by
  unfold sendFlit; dsimp only; (repeat' split) <;> rfl
@[simp] theorem sendFlit_hostMem (s : State) (f : Flit) : (sendFlit s f).hostMem = s.hostMem := by
  unfold sendFlit; dsimp only; (repeat' split) <;> rfl

/-! ## A write at a home -/

@[simp] theorem makeRoom_mem (s : State) (line : Nat) : (makeRoom s line).mem = s.mem := by
  unfold makeRoom State.drawBelow; dsimp only; split <;> rfl
@[simp] theorem makeRoom_hostMem (s : State) (line : Nat) : (makeRoom s line).hostMem = s.hostMem := by
  unfold makeRoom State.drawBelow; dsimp only; split <;> rfl
@[simp] theorem logWrite_mem (s : State) (line : Nat) (old : Mem) : (logWrite s line old).mem = s.mem := by
  unfold logWrite; dsimp only; split <;> simp
@[simp] theorem logWrite_hostMem (s : State) (line : Nat) (old : Mem) : (logWrite s line old).hostMem = s.hostMem := by
  unfold logWrite; dsimp only; split <;> simp

/-- A write at a home goes to device memory, unless a version in the tile pool holds the bytes. -/
theorem physWrite_mem (s : State) (pa : Nat) (d : List (Option Byte)) :
    (physWrite s pa d).mem = if (poolVer s (fwd s pa)).isSome then s.mem else memPutAll s.mem (fwd s pa) d := by
  unfold physWrite; dsimp only; split <;> rename_i h <;> simp [h]
@[simp] theorem physWrite_hostMem (s : State) (pa : Nat) (d : List (Option Byte)) : (physWrite s pa d).hostMem = s.hostMem := by
  unfold physWrite; dsimp only; split <;> simp

/-- What device memory reads after a write at a home: the bytes that are present, every other as before. -/
theorem physWrite_reads (s : State) (pa : Nat) (d : List (Option Byte)) (a : Nat) (h : poolVer s (fwd s pa) = none) :
    memRead (physWrite s pa d).mem a =
      match if fwd s pa ≤ a then d[a - fwd s pa]? else none with
      | some (some x) => x
      | _ => memRead s.mem a := by
  rw [physWrite_mem, h]; exact memRead_memPutAll d s.mem (fwd s pa) a

/-- What a Loft reads after a write of it. -/
theorem loftWrite_reads (s : State) (c a : Nat) (d : List (Option Byte)) (i : Nat) :
    memRead ((loftWrite s c a d).core c).loft i =
      match if a ≤ i then d[i - a]? else none with
      | some (some x) => x
      | _ => memRead (s.core c).loft i := by
  simp only [loftWrite, State.core_onCore]; exact memRead_memPutAll d _ a i

/-! ## The canonical form -/

theorem wf_foldl_memPut (w : List Host.Cell) (m : Mem) (h : Memory.wf m = true) :
    Memory.wf (w.foldl (fun m c => memPut m c.1 c.2) m) = true := by
  induction w generalizing m with
  | nil => exact h
  | cons c w ih => exact ih _ (wf_memPut m c.1 c.2 h)

theorem wf_undoWrites (ws : List (Mem × Bool)) (n : Nat) (m : Mem) (h : Memory.wf m = true) : Memory.wf (undoWrites m ws n) = true := by
  induction ws generalizing n m with
  | nil => exact h
  | cons w ws ih =>
    cases n with
    | zero => exact h
    | succ n => exact ih n _ (wf_foldl_memPut w.1 m h)

theorem memoriesWf_iff (s : State) : memoriesWf s = true ↔ Memory.wf s.mem = true ∧ Memory.wf s.hostMem = true := by
  simp [memoriesWf]

theorem memoriesWf_same (s t : State) (h : memoriesWf s = true) (hm : t.mem = s.mem) (hh : t.hostMem = s.hostMem) :
    memoriesWf t = true := by
  rw [memoriesWf_iff] at h ⊢
  rw [hm, hh]; exact h

theorem memoriesWf_physWrite (s : State) (pa : Nat) (d : List (Option Byte)) (h : memoriesWf s = true) :
    memoriesWf (physWrite s pa d) = true := by
  rw [memoriesWf_iff] at h ⊢
  refine ⟨?_, by simpa using h.2⟩
  rw [physWrite_mem]
  split
  · exact h.1
  · exact wf_memPutAll d _ _ h.1

theorem memoriesWf_discardLine (s : State) (pa : Nat) (h : memoriesWf s = true) : memoriesWf (discardLine s pa) = true := by
  unfold discardLine
  dsimp only
  split
  · exact h
  · rw [memoriesWf_iff] at h ⊢
    exact ⟨wf_undoWrites _ _ _ h.1, h.2⟩

theorem memoriesWf_rmw (s : State) (pa n : Nat) (f : List Byte → List (Option Byte)) (h : memoriesWf s = true) :
    memoriesWf (rmw s pa n f).2 = true := by
  unfold rmw
  split
  · exact memoriesWf_same s _ h (by simp) (by simp)
  · exact memoriesWf_physWrite s pa _ h

/-- An operation on device memory keeps both memories in canonical form. -/
theorem memoriesWf_devOp (s : State) (pa : Nat) (op : MemOp) (h : memoriesWf s = true) : memoriesWf (devOp s pa op).2 = true := by
  cases op with
  | read o z b =>
    simp only [devOp]
    split
    · exact memoriesWf_same s _ h (by simp) (by simp)
    · exact memoriesWf_same s _ h (by simp) (by simp)
  | write d => exact memoriesWf_physWrite s pa d h
  | amo fn w b => exact memoriesWf_rmw s pa _ _ h
  | vamo fn b => exact memoriesWf_rmw s pa _ _ h
  | discard => exact memoriesWf_discardLine s pa h
  | clean n => exact memoriesWf_same s _ h rfl rfl
  | probe _ _ => exact h

/-- An operation on host memory by way of the host-attach agent changes neither memory. -/
theorem hostOp_mem (s : State) (pa : Nat) (op : MemOp) :
    (hostOp s pa op).2.mem = s.mem ∧ (hostOp s pa op).2.hostMem = s.hostMem := by
  unfold hostOp
  dsimp only
  repeat' split
  all_goals first
    | exact ⟨rfl, rfl⟩
    | (constructor <;> simp)

/-- Every operation of a home keeps both memories in canonical form. -/
theorem memoriesWf_memOp (s : State) (leaf : Leaf) (pa : Nat) (op : MemOp) (h : memoriesWf s = true) :
    memoriesWf (memOp s leaf pa op).2 = true := by
  have host : memoriesWf (hostOp s pa op).2 = true := memoriesWf_same s _ h (hostOp_mem s pa op).1 (hostOp_mem s pa op).2
  unfold memOp
  split <;> split
  · exact memoriesWf_devOp s pa _ h
  · exact h
  · exact host
  · exact memoriesWf_devOp s pa op h

theorem memoriesWf_reset : memoriesWf State.reset = true := rfl

end Sys2Proof.Machine
end

