-- ==== Sys2Proof/Laws/Ops.lean ====
section
/-! SUPPORT. What the shared operations of firing, delivering, holding and faulting do, said once. -/

namespace Sys2Proof.Machine

/-! ## Blocks in windows -/

theorem State.onBlock_block (s : State) (c t : Nat) (f : Block → Block) :
    ((s.onBlock c t f).strand c t).block = (s.strand c t).block.map f := by simp

theorem State.onBlock_onBlock (s : State) (c t : Nat) (f g : Block → Block) :
    (s.onBlock c t f).onBlock c t g = s.onBlock c t (g ∘ f) := by
  simp [State.onBlock, State.onStrand, State.strand, Option.map_map]

/-! ## Tokens -/

theorem modify_at {α : Type} (f : α → α) (l : List α) (i : Nat) (x : α) (h : l[i]? = some x) : l.modify i f = l.set i (f x) := by
  induction l generalizing i with
  | nil => simp at h
  | cons y ys ih =>
    cases i with
    | zero => simp_all
    | succ i => simp_all

/-- A target that is free takes its token (R43, R63). -/
theorem fillTarget_free (b : Block) (tg : BitVec 8) (tk : Token) (n : Nat) (h : targetFree b tg = true) :
    fillTarget b tg tk n = some (putAt n tk b tg) := by
  have hlt := tg.isLt
  simp only [targetFree, Bool.or_eq_true, beq_iff_eq, Bool.and_eq_true, decide_eq_true_eq] at h
  by_cases h0 : tg = 0
  · subst h0; simp [fillTarget, putAt]
  · rcases h with (h | ⟨⟨h1, h2⟩, h3⟩) | ⟨h1, h2⟩
    · exact absurd h h0
    · have hd : tg.toNat / 64 = 0 := by omega
      have hm : tg.toNat % 64 = tg.toNat := by omega
      have hl : tg.toNat < 64 := by omega
      have h0' : ¬tg = 0#8 := h0
      simp [fillTarget, putAt, hd, hm, h0', h3, hl]
    · have hl : ¬tg.toNat < 64 := by omega
      have hd : tg.toNat / 64 = 1 ∨ tg.toNat / 64 = 2 ∨ tg.toNat / 64 = 3 := by omega
      have h0' : ¬tg = 0#8 := h0
      cases hs : b.slots[tg.toNat % 64]? with
      | none => simp [hs] at h2
      | some sl =>
        simp only [hs] at h2
        rcases hd with hd | hd | hd <;> simp only [hd, Option.isNone_iff_eq_none] at h2 <;>
          simp [fillTarget, putAt, hd, hs, h2, h0', hl, modify_at _ _ _ _ hs]

/-- A full target refuses its token. -/
theorem fillTarget_none (b : Block) (tg : BitVec 8) (x y : Token) (m n : Nat) (h : fillTarget b tg x m = none) :
    fillTarget b tg y n = none := by
  unfold fillTarget at h ⊢
  dsimp only at h ⊢
  repeat' split at h
  all_goals simp_all

/-- A token delivered to one free target. -/
theorem deliver_one (s : State) (c t : Nat) (tk : Token) (t0 : BitVec 8) (b : Block)
    (hb : (s.strand c t).block = some b) (h : targetFree b t0 = true) :
    deliver s c t tk [t0] = s.onBlock c t fun _ => putAt (s.cycle + s.lat) tk b t0 := by
  simp [deliver, hb, fillTarget_free b t0 tk _ h]

/-! ## Firing -/

/-- A firing that is not ready changes nothing. -/
theorem fireWith_idle (s : State) (na nb c3 sel : Bool) (pr : BitVec 2) (k : Fired → State → State)
    (h : ∀ b, s.curBlock = some b → readyOps b s.cur.2.2 na nb c3 sel pr = none) : fireWith s na nb c3 sel pr k = s := by
  unfold fireWith
  cases hb : s.curBlock with
  | none => rfl
  | some b => simp [h b hb]

/-- A firing that is ready marks its slot and goes on. -/
theorem fireWith_ready (s : State) (na nb c3 sel : Bool) (pr : BitVec 2) (k : Fired → State → State) (b : Block) (f : Fired)
    (hb : s.curBlock = some b) (h : readyOps b s.cur.2.2 na nb c3 sel pr = some f) :
    fireWith s na nb c3 sel pr k = k f (s.onBlock s.cur.1 s.cur.2.1 fun b =>
      { b with slots := onNth (fun sl => { sl with fired := true }) b.slots s.cur.2.2 }) := by
  simp [fireWith, hb, h]

theorem onNth_eq_modify {α : Type} (f : α → α) (l : List α) (n : Nat) : onNth f l n = l.modify n f := by
  induction l generalizing n with
  | nil => cases n <;> rfl
  | cons x xs ih => cases n with
    | zero => rfl
    | succ n => simp [onNth, ih]

/-! ## Trap entry and return -/

@[simp] theorem trapEntry_mem (s : State) (c t : Nat) (r : TrapRec) : (trapEntry s c t r).mem = s.mem := rfl
@[simp] theorem trapEntry_hostMem (s : State) (c t : Nat) (r : TrapRec) : (trapEntry s c t r).hostMem = s.hostMem := rfl
@[simp] theorem trapReturn_mem (s : State) (c t : Nat) : (trapReturn s c t).mem = s.mem := rfl
/-- A trap entry changes its own strand only. -/
theorem trapEntry_other (s : State) (c t d u : Nat) (r : TrapRec) (h : ¬(d = c ∧ u = t)) :
    (trapEntry s c t r).strand d u = s.strand d u := State.strand_onStrand_other s c t d u _ h
/-- A trap entry keeps the general registers. -/
theorem trapEntry_regs (s : State) (c t : Nat) (r : TrapRec) :
    ((trapEntry s c t r).strand c t).g = (s.strand c t).g ∧ ((trapEntry s c t r).strand c t).v = (s.strand c t).v := by
  simp [trapEntry]

/-! ## Flushes and faults write no memory -/

theorem foldl_same {α β : Type} (p : State → β) (f : State → α → State) (h : ∀ s a, p (f s a) = p s) (l : List α) (s : State) :
    p (l.foldl f s) = p s := by
  induction l generalizing s with
  | nil => rfl
  | cons a l ih => rw [List.foldl_cons, ih, h]

theorem releaseChans_mem (s : State) (c : Nat) (b : Block) :
    (releaseChans s c b).mem = s.mem ∧ (releaseChans s c b).hostMem = s.hostMem := by
  unfold releaseChans
  dsimp only
  constructor
  · rw [foldl_same State.mem _ (by intro s a; split <;> simp), foldl_same State.mem _ (by intro s a; simp)]
  · rw [foldl_same State.hostMem _ (by intro s a; split <;> simp), foldl_same State.hostMem _ (by intro s a; simp)]

theorem dropOps_mem (s : State) (c t : Nat) (b : Block) :
    (dropOps s c t b).mem = s.mem ∧ (dropOps s c t b).hostMem = s.hostMem := by
  unfold dropOps cancelSnews
  dsimp only
  constructor
  · rw [foldl_same State.mem _ (by intro s a; simp), State.onCore_mem, foldl_same State.mem _ (by intro s a; split <;> simp)]
  · rw [foldl_same State.hostMem _ (by intro s a; simp), State.onCore_hostMem,
      foldl_same State.hostMem _ (by intro s a; split <;> simp)]

/-- A flush writes no memory. -/
theorem flushQuiet_mem (s : State) (c t : Nat) : (flushQuiet s c t).mem = s.mem ∧ (flushQuiet s c t).hostMem = s.hostMem := by
  unfold flushQuiet
  split
  · exact ⟨rfl, rfl⟩
  · simp [dropOps_mem, releaseChans_mem]
theorem flush_mem (s : State) (c t : Nat) : (flush s c t).mem = s.mem ∧ (flush s c t).hostMem = s.hostMem := by
  unfold flush
  split
  · simpa using flushQuiet_mem s c t
  · exact ⟨rfl, rfl⟩

/-- A precise fault writes no memory. -/
theorem preciseFault_mem (s : State) (c t : Nat) (r : TrapRec) :
    (preciseFault s c t r).mem = s.mem ∧ (preciseFault s c t r).hostMem = s.hostMem := by
  have h := flush_mem s c t
  unfold preciseFault stopStrand holdStrand
  dsimp only
  repeat' split
  all_goals simpa using h

/-- A fault of a block writes no memory. -/
theorem raise_mem (s : State) (c t cause : Nat) (tval : Word) (lsid : Option Nat) :
    (raise s c t cause tval lsid).mem = s.mem ∧ (raise s c t cause tval lsid).hostMem = s.hostMem := by
  unfold raise
  repeat' split
  · exact ⟨rfl, rfl⟩
  · exact ⟨rfl, rfl⟩
  · exact ⟨rfl, rfl⟩
  · exact preciseFault_mem s c t _
  · exact ⟨rfl, rfl⟩

/-- A token delivered writes no memory. -/
theorem deliver_mem (s : State) (c t : Nat) (tk : Token) (tgs : List (BitVec 8)) :
    (deliver s c t tk tgs).mem = s.mem ∧ (deliver s c t tk tgs).hostMem = s.hostMem := by
  unfold deliver
  dsimp only
  repeat' split
  all_goals simp [raise_mem]

end Sys2Proof.Machine
end

