-- ==== Sys2Proof/Tests/Slice0.lean ====
section
/-! SUPPORT. Tests of the model's own work: words written out from the spec's encodings, ill-formed terms that the checks refuse,
single steps with results worked out from the spec, and for each statement with hypotheses a state and operands that meet them. -/

namespace Sys2Proof.Tests

open Sys2Proof Sys2Proof.Machine

-- one theorem at a time: hundreds of waiting checks would each take a thread
set_option Elab.async false

/-! ## Words of the spec's encodings (R60-R87), by family: every field holds a value of its own -/

/-- Each word decodes to its instruction, which is well formed. -/
def decodesTo (l : List (Word32 × Word32 × Instr)) : Bool := l.all fun e => decode e.1 e.2.1 == some e.2.2 && e.2.2.wf

theorem test_decode_exits_and_constants : decodesTo [
  (0x0353FFFE, 0x0, .br 2 5 0x3fffe),
  (0x03580000, 0x0, .bri 2 5),
  (0x035EA5A5, 0x0, .scall 2 5 0x2a5a5),
  (0x05500000, 0x0, .halt 2 5),
  (0x0753FFFE, 0x0, .yield 2 5 0x3fffe),
  (0x09500000, 0x0, .hret 2 5),
  (0x0B500000, 0x0, .tret 2 5),
  (0x0D0A5CC3, 0x0, .link 2 0xa5c 0xc3),
  (0x0F3A5CC3, 0x0, .genc 2 3 0xa5c 0xc3),
  (0x113A5CC3, 0x0, .genu 2 3 0xa5c 0xc3),
  (0x130085C3, 0x0, .mov 2 0x85 0xc3),
  (0x153000C3, 0x0, .nul 2 3 0xc3)] = true := by decide
theorem test_decode_integer_lanes : decodesTo [
  (0x173085C3, 0x0, .sel 2 3 0x85 0xc3),
  (0x213085C3, 0x0, .add 2 3 0x85 0xc3),
  (0x213185C3, 0x0, .sub 2 3 0x85 0xc3),
  (0x213285C3, 0x0, .mul 2 3 0x85 0xc3),
  (0x213385C3, 0x0, .mulh 2 3 0x85 0xc3),
  (0x213485C3, 0x0, .mulhu 2 3 0x85 0xc3),
  (0x213585C3, 0x0, .mulhsu 2 3 0x85 0xc3),
  (0x213685C3, 0x0, .div 2 3 0x85 0xc3),
  (0x213785C3, 0x0, .divu 2 3 0x85 0xc3),
  (0x213885C3, 0x0, .rem 2 3 0x85 0xc3),
  (0x213985C3, 0x0, .remu 2 3 0x85 0xc3),
  (0x233085C3, 0x0, .iand 2 3 0x85 0xc3),
  (0x233185C3, 0x0, .ior 2 3 0x85 0xc3),
  (0x233285C3, 0x0, .ixor 2 3 0x85 0xc3),
  (0x233385C3, 0x0, .andn 2 3 0x85 0xc3),
  (0x233485C3, 0x0, .orn 2 3 0x85 0xc3),
  (0x233585C3, 0x0, .shl 2 3 0x85 0xc3),
  (0x233685C3, 0x0, .shr 2 3 0x85 0xc3),
  (0x233785C3, 0x0, .sra 2 3 0x85 0xc3),
  (0x233885C3, 0x0, .rol 2 3 0x85 0xc3),
  (0x253085C3, 0x0, .clz 2 3 0x85 0xc3),
  (0x253185C3, 0x0, .ctz 2 3 0x85 0xc3),
  (0x253285C3, 0x0, .popc 2 3 0x85 0xc3),
  (0x253385C3, 0x0, .brev 2 3 0x85 0xc3),
  (0x253485C3, 0x0, .iabs 2 3 0x85 0xc3),
  (0x273009C3, 0x0, .sext 2 3 9 0xc3),
  (0x293009C3, 0x0, .zext 2 3 9 0xc3),
  (0x2B3085C3, 0x0, .imin 2 3 0x85 0xc3),
  (0x2B3185C3, 0x0, .imax 2 3 0x85 0xc3),
  (0x2B3285C3, 0x0, .minu 2 3 0x85 0xc3),
  (0x2B3385C3, 0x0, .maxu 2 3 0x85 0xc3),
  (0x2D3085C3, 0x0, .adds 2 3 0x85 0xc3),
  (0x2D3185C3, 0x0, .subs 2 3 0x85 0xc3),
  (0x2D3285C3, 0x0, .addsu 2 3 0x85 0xc3),
  (0x2D3385C3, 0x0, .subsu 2 3 0x85 0xc3)] = true := by decide
theorem test_decode_tests_and_immediates : decodesTo [
  (0x2F3085C3, 0x0, .teq 2 3 0x85 0xc3),
  (0x2F3185C3, 0x0, .tne 2 3 0x85 0xc3),
  (0x2F3285C3, 0x0, .tlt 2 3 0x85 0xc3),
  (0x2F3385C3, 0x0, .tle 2 3 0x85 0xc3),
  (0x2F3485C3, 0x0, .tltu 2 3 0x85 0xc3),
  (0x2F3585C3, 0x0, .tleu 2 3 0x85 0xc3),
  (0x313A5CC3, 0x0, .addi 2 3 0xa5c 0xc3),
  (0x333A5CC3, 0x0, .andi 2 3 0xa5c 0xc3),
  (0x353A5CC3, 0x0, .ori 2 3 0xa5c 0xc3),
  (0x373A5CC3, 0x0, .xori 2 3 0xa5c 0xc3),
  (0x393009C3, 0x0, .shli 2 3 9 0xc3),
  (0x3B3009C3, 0x0, .shri 2 3 9 0xc3),
  (0x3D3009C3, 0x0, .srai 2 3 9 0xc3),
  (0x3F3A5CC3, 0x0, .muli 2 3 0xa5c 0xc3),
  (0x413A5CC3, 0x0, .teqi 2 3 0xa5c 0xc3),
  (0x433A5CC3, 0x0, .tnei 2 3 0xa5c 0xc3),
  (0x453A5CC3, 0x0, .tlti 2 3 0xa5c 0xc3),
  (0x473A5CC3, 0x0, .tlei 2 3 0xa5c 0xc3),
  (0x493A5CC3, 0x0, .tgti 2 3 0xa5c 0xc3)] = true := by decide
theorem test_decode_vector_lanes : decodesTo [
  (0x613085C3, 0x0, .vperm 2 3 0x85 0xc3),
  (0x613185C3, 0x0, .vzip 2 3 0x85 0xc3),
  (0x613285C3, 0x0, .vunzip 2 3 0x85 0xc3),
  (0x613385C3, 0x0, .vcmpr 2 3 0x85 0xc3),
  (0x633085C3, 0x0, .vbcast 2 3 0x85 0xc3),
  (0x633185C3, 0x0, .vscan 2 3 0x85 0xc3),
  (0x633285C3, 0x0, .vredadd 2 3 0x85 0xc3),
  (0x633385C3, 0x0, .vredmin 2 3 0x85 0xc3),
  (0x633485C3, 0x0, .vredmax 2 3 0x85 0xc3),
  (0x633585C3, 0x0, .vredor 2 3 0x85 0xc3),
  (0x633685C3, 0x0, .maskpop 2 3 0x85 0xc3),
  (0x653009C3, 0x0, .vext 2 3 9 0xc3),
  (0x673985C3, 0x0, .vins 2 3 9 0x85 0xc3),
  (0x693FF9C3, 0x0, .vslide 2 3 0xff9 0xc3),
  (0x6B3A5CC3, 0x0, .viota 2 3 0xa5c 0xc3)] = true := by decide
theorem test_decode_floats : decodesTo [
  (0x893085C3, 0x0, .fadd 1 2 3 0x85 0xc3),
  (0x893185C3, 0x0, .fsub 1 2 3 0x85 0xc3),
  (0x893285C3, 0x0, .fmul 1 2 3 0x85 0xc3),
  (0x893385C3, 0x0, .fdiv 1 2 3 0x85 0xc3),
  (0x893485C3, 0x0, .fmin 1 2 3 0x85 0xc3),
  (0x893585C3, 0x0, .fmax 1 2 3 0x85 0xc3),
  (0x893685C3, 0x0, .fcpys 1 2 3 0x85 0xc3),
  (0x893785C3, 0x0, .fdot 1 2 3 0x85 0xc3),
  (0x893885C3, 0x0, .fscl 1 2 3 0x85 0xc3),
  (0x8B3085C3, 0x0, .fsqrt 1 2 3 0x85 0xc3),
  (0x8B3185C3, 0x0, .frcp 1 2 3 0x85 0xc3),
  (0x8B3285C3, 0x0, .frsq 1 2 3 0x85 0xc3),
  (0x8B3385C3, 0x0, .fabs 1 2 3 0x85 0xc3),
  (0x8B3485C3, 0x0, .fneg 1 2 3 0x85 0xc3),
  (0x8B3585C3, 0x0, .fexp2 1 2 3 0x85 0xc3),
  (0x8B3685C3, 0x0, .flog2 1 2 3 0x85 0xc3),
  (0x8B3785C3, 0x0, .fclass 1 2 3 0x85 0xc3),
  (0x8B3885C3, 0x0, .fredadd 1 2 3 0x85 0xc3),
  (0x8B3985C3, 0x0, .nfchk 1 2 3 0x85 0xc3),
  (0x8D3085C3, 0x0, .feq 1 2 3 0x85 0xc3),
  (0x8D3185C3, 0x0, .flt 1 2 3 0x85 0xc3),
  (0x8D3285C3, 0x0, .fle 1 2 3 0x85 0xc3),
  (0x8D3385C3, 0x0, .fun 1 2 3 0x85 0xc3),
  (0x8FB085C3, 0x0, .ffma 1 3 0x85 0xc3),
  (0x8FB185C3, 0x0, .ffms 1 3 0x85 0xc3),
  (0x8FB285C3, 0x0, .fnfma 1 3 0x85 0xc3),
  (0x8FB385C3, 0x0, .vmaxexp 1 3 0x85 0xc3)] = true := by decide
theorem test_decode_narrow_formats : decodesTo [
  (0xB13C35C3, 0x0, .cvt 2 3 1 4 3 5 0xc3),
  (0xB33C4DC3, 0x0, .cvtB8 2 3 1 4 4 1 5 0xc3),
  (0xB53C4DC3, 0x0, .cvtUb8 2 3 1 4 4 1 5 0xc3),
  (0xB76085C3, 0x0, .qpk4 2 0x85 0xc3),
  (0xB75185C3, 0x0, .qpk8E4m3 2 0x85 0xc3),
  (0xB75285C3, 0x0, .qpk8E5m2 2 0x85 0xc3),
  (0xB76385C3, 0x0, .qunpE2m1 2 0x85 0xc3),
  (0xB75485C3, 0x0, .qunpE4m3 2 0x85 0xc3),
  (0xB75585C3, 0x0, .qunpE5m2 2 0x85 0xc3),
  (0xB76685C3, 0x0, .lut4 2 6 0x85 0xc3),
  (0xB76785C3, 0x0, .i4pk 2 6 0x85 0xc3)] = true := by decide
theorem test_decode_memory : decodesTo [
  (0xC1560EC3, 0x0, .ld 2 0x15 4 0xe 0xc3),
  (0xC15613C3, 0x0, .ldAcq 2 0x15 4 3 0xc3),
  (0xC1563EC3, 0x0, .ldLast 2 0x15 4 0xe 0xc3),
  (0xC1564E00, 0x0, .ldPf 2 0x15 0xe),
  (0xC1565EC3, 0x0, .ldLoc 2 0x15 4 0xe 0xc3),
  (0xC15661C3, 0x0, .ldLocacq 2 0x15 4 0xc3),
  (0xC35600FE, 0x0, .st 2 0x15 4 0xfe),
  (0xC3562300, 0x0, .stRel 2 0x15 4 3),
  (0xC35650FE, 0x0, .stLoc 2 0x15 4 0xfe)] = true := by decide
theorem test_decode_atomics : decodesTo [
  (0xD35582C3, 0x0, .aaddRet 1 2 0x15 3 2 0xc3),
  (0xD3558AC3, 0x0, .aandRet 1 2 0x15 3 2 0xc3),
  (0xD35592C3, 0x0, .aorRet 1 2 0x15 3 2 0xc3),
  (0xD3559AC3, 0x0, .axorRet 1 2 0x15 3 2 0xc3),
  (0xD355A2C3, 0x0, .aminRet 1 2 0x15 3 2 0xc3),
  (0xD355AAC3, 0x0, .amaxRet 1 2 0x15 3 2 0xc3),
  (0xD355B2C3, 0x0, .aminuRet 1 2 0x15 3 2 0xc3),
  (0xD355BAC3, 0x0, .amaxuRet 1 2 0x15 3 2 0xc3),
  (0xD355C2C3, 0x0, .axchgRet 1 2 0x15 3 2 0xc3),
  (0xD355CAC3, 0x0, .acas 1 2 0x15 3 2 0xc3),
  (0xD155D2C3, 0x0, .afaddRet 2 0x15 3 2 0xc3),
  (0xD755A0FE, 0x0, .aaddNr 1 2 0x15 3 2 0xfe),
  (0xD755A1FE, 0x0, .aandNr 1 2 0x15 3 2 0xfe),
  (0xD755A2FE, 0x0, .aorNr 1 2 0x15 3 2 0xfe),
  (0xD755A3FE, 0x0, .axorNr 1 2 0x15 3 2 0xfe),
  (0xD755A4FE, 0x0, .aminNr 1 2 0x15 3 2 0xfe),
  (0xD755A5FE, 0x0, .amaxNr 1 2 0x15 3 2 0xfe),
  (0xD755A6FE, 0x0, .aminuNr 1 2 0x15 3 2 0xfe),
  (0xD755A7FE, 0x0, .amaxuNr 1 2 0x15 3 2 0xfe),
  (0xD755A8FE, 0x0, .axchgNr 1 2 0x15 3 2 0xfe),
  (0xD555AAFE, 0x0, .afaddNr 2 0x15 3 2 0xfe),
  (0xD955A0FE, 0x0, .aorV 2 0x15 3 2 0xfe),
  (0xD955A1FE, 0x0, .aandV 2 0x15 3 2 0xfe),
  (0xD955A2FE, 0x0, .aaddV32 2 0x15 3 2 0xfe)] = true := by decide
theorem test_decode_fences_and_channels : decodesTo [
  (0xDB568000, 0x0, .fenceAcq 2 0x15 5),
  (0xDB569000, 0x0, .fenceRel 2 0x15 5),
  (0xDB56A000, 0x0, .fenceAr 2 0x15 5),
  (0xDB543000, 0x0, .inv 2 0x15),
  (0xDB544000, 0x0, .clean 2 0x15),
  (0xF15402C3, 0x0, .chpop 2 0x15 2 0xc3),
  (0xF15482C3, 0x0, .chpek 2 0x15 2 0xc3),
  (0xF1550200, 0x0, .chpsh 2 0x15 2),
  (0xF1558B00, 0x0, .msend 2 0x15 0xb)] = true := by decide
theorem test_decode_system_registers : decodesTo [
  (0xF70101C3, 0x0, .sysrd 2 0x101 0xc3),
  (0xF9012400, 0x0, .syswr 2 0x124)] = true := by decide
theorem test_decode_tiles : decodesTo [
  (0xE1540300, 0x3000005, .tnew 2 0x15 1 1 0x3000005),
  (0xE1542CC3, 0x3000005, .tld 2 0x15 4 1 0xc3 0x3000005),
  (0xE1544400, 0x3000005, .tst 2 0x15 4 0x3000005),
  (0xE1546000, 0x3000005, .tseal 2 0x15 0x3000005),
  (0xE1546100, 0x3000005, .tsealEnd 2 0x15 0x3000005),
  (0xE15480C3, 0x3000005, .twait 2 0x15 0xc3 0x3000005),
  (0xE154A1C3, 0x3000005, .tqry 2 0x15 1 0xc3 0x3000005),
  (0xE154C000, 0x3000005, .thold 2 0x15 0x3000005),
  (0xE154E000, 0x3000005, .trel 2 0x15 0x3000005),
  (0xE1550000, 0x3000005, .tfork 2 0x15 0x3000005),
  (0xE1552000, 0x3000005, .talias 2 0x15 0x3000005),
  (0xE1554000, 0x3000005, .tguard 2 0x15 0x3000005),
  (0xE1556000, 0x3000005, .tsub 2 0x15 0x3000005),
  (0xE1558000, 0x3000005, .tpin 2 0x15 0x3000005),
  (0xE155A000, 0x3000005, .tunpin 2 0x15 0x3000005),
  (0xE155C100, 0x3000005, .tmove 2 0x15 1 0x3000005)] = true := by decide
theorem test_decode_local_tiles : decodesTo [
  (0xE3540000, 0x3000005, .tnewLoc 2 0x15 0x3000005),
  (0xE3542CC3, 0x3000005, .tldLoc 2 0x15 4 1 0xc3 0x3000005),
  (0xE3544400, 0x3000005, .tstLoc 2 0x15 4 0x3000005),
  (0xE3546100, 0x3000005, .tsealLoc 2 0x15 1 0x3000005),
  (0xE35480C3, 0x3000005, .twaitLoc 2 0x15 0xc3 0x3000005),
  (0xE354A0C3, 0x3000005, .tqryLoc 2 0x15 0xc3 0x3000005),
  (0xE354C000, 0x3000005, .tholdLoc 2 0x15 0x3000005),
  (0xE354E000, 0x3000005, .trelLoc 2 0x15 0x3000005),
  (0xE3550000, 0x3000005, .tforkLoc 2 0x15 0x3000005),
  (0xE3552000, 0x3000005, .taliasLoc 2 0x15 0x3000005)] = true := by decide
theorem test_decode_matrix : decodesTo [
  (0xE9540000, 0x1234, .mcfg 2 0x15 0x1234),
  (0xE9542100, 0x0, .mlds 2 0x15 1 0),
  (0xE9544000, 0x2A0005, .mswap 2 0x15 0x2a0005),
  (0xE9546000, 0x0, .mstr 2 0x15 0),
  (0xE9548300, 0x4000007, .mzero 2 0x15 3 0x4000007),
  (0xE954BC00, 0x0, .mdrn 2 0x15 4 1 1 0)] = true := by decide
theorem test_decode_engines_and_links : decodesTo [
  (0xED540000, 0x3000005, .xcopy 2 0x15 0x3000005),
  (0xED540100, 0x3000005, .xcopyExp 2 0x15 0x3000005),
  (0xED542300, 0x3000005, .xgath 2 0x15 3 0x3000005),
  (0xED544300, 0x3000005, .xscat 2 0x15 3 0x3000005),
  (0xED546000, 0x3000005, .xfill 2 0x15 0x3000005),
  (0xED548100, 0x0, .xcan 2 0x15 1 0),
  (0xF3540000, 0x3000005, .xput 2 0x15 0x3000005),
  (0xF3541B00, 0x3000005, .xputEfq 2 0x15 1 2 1 0x3000005),
  (0xF3541200, 0x3000005, .xputFold 2 0x15 1 0x3000005),
  (0xF3542000, 0x3000005, .xget 2 0x15 0x3000005)] = true := by decide
theorem test_decode_larder : decodesTo [
  (0xF55400C3, 0x0, .snew 2 0x15 0xc3 0),
  (0xF5542100, 0x0, .sarr 2 0x15 1 0),
  (0xF5544000, 0x0, .ssetPdone 2 0x15 0),
  (0xF5544100, 0x0, .ssetIdle 2 0x15 0),
  (0xF5544200, 0x0, .ssetFinish 2 0x15 0),
  (0xF5544300, 0x0, .ssetPause 2 0x15 0),
  (0xF5544400, 0x0, .ssetResume 2 0x15 0),
  (0xF5544500, 0x0, .ssetCtx 2 0x15 0),
  (0xF5544600, 0x0, .ssetAttr 2 0x15 0),
  (0xF5544700, 0x0, .ssetTouch 2 0x15 0),
  (0xF55460C3, 0x0, .sqry 2 0x15 0xc3 0),
  (0xF5548700, 0x3000005, .sbld 2 0x15 7 0x3000005)] = true := by decide
theorem test_decode_system : decodesTo [
  (0xFB000000, 0x1234, .trap 2 0x1234),
  (0xFB002000, 0x3000005, .wfi 2 0x3000005),
  (0xFB004000, 0x0, .align 2 0),
  (0xFB006000, 0x1234, .dbgbrk 2 0x1234),
  (0xFB008000, 0x0, .tlbinv 2 0),
  (0xFB00A000, 0x0, .pmig 2 0)] = true := by decide

/-! ## Ill-formed terms -/

/-- Every one is refused by the check. -/
def illFormed (l : List Instr) : Bool := l.all fun i => !i.wf

/-- Shapes (R68, R77, R107) and predicate fields (R36, R117). -/
theorem test_wf_shapes : illFormed [.add 0 6 0 0, .genc 0 7 0 0, .teqi 0 6 0 0, .vperm 0 1 0 0, .vcmpr 0 6 0 0, .viota 0 0 0 0,
  .mov 1 0 0, .qpk4 1 0 0, .qunpE5m2 1 0 0, .sel 0 2 0 0, .sel 1 6 0 0, .fadd 3 0 1 0 0, .fadd 0 0 4 0 0, .fmul 1 0 0 0 0,
  .feq 2 0 5 0 0, .ffma 0 0 0 0, .vmaxexp 0 2 0 0, .lut4 1 6 0 0, .lut4 0 5 0 0, .i4pk 0 2 0 0] = true := by decide
/-- Immediates (R120, R121, R125). -/
theorem test_wf_immediates : illFormed [.sext 0 1 0 0, .sext 0 1 32 0, .zext 0 4 16 0, .shli 0 5 8 0, .shri 0 1 32 0,
  .srai 0 2 64 0, .shli 0 5 (-1) 0, .vext 0 2 8 0, .vext 0 3 (-1) 0, .vins 0 2 8 0 0, .vslide 0 2 8 0, .vslide 0 2 (-8) 0] = true := by
  decide
/-- Conversions (R163, R164). -/
theorem test_wf_conversions : illFormed [.cvt 0 6 0 0 3 4 0, .cvt 0 1 0 0 3 3 0, .cvt 0 1 0 0 8 3 0, .cvt 0 1 0 0 3 9 0, .cvt 0 1 0 5 3 4 0,
  .cvt 0 4 0 0 3 4 0, .cvt 0 1 0 0 1 0 0, .cvt 0 1 1 0 3 6 0, .cvtB8 0 1 0 0 3 0 0 0, .cvtUb8 0 1 0 5 3 0 1 0, .cvtB8 0 5 0 0 4 0 1 0,
  .cvtB8 0 7 0 0 3 0 1 0] = true := by decide
/-- Sizes, scopes and orders (R69-R73, R221). -/
theorem test_wf_memory : illFormed [.ld 0 0 5 0 0, .st 0 0 7 0, .tld 0 0 5 0 0 0, .tstLoc 0 0 6 0, .ldAcq 0 0 0 0 0, .stRel 0 0 0 6,
  .fenceAr 0 0 0, .fenceAcq 0 0 6, .aaddRet 0 0 0 1 0 0, .acas 0 0 0 0 1 0, .axchgRet 0 0 0 2 5 0, .aaddNr 0 0 0 1 1 0,
  .aorV 0 0 1 3 0, .afaddNr 0 0 0 2 0] = true := by decide
/-- Register indices (R96). -/
theorem test_wf_registers : illFormed [.sysrd 0 0x00A 0, .sysrd 0 0x103 0, .syswr 0 0x118, .syswr 0 0x129, .sysrd 0 0x204 0, .sysrd 0 0x302 0,
  .syswr 0 0xFFF] = true := by decide
/-- Zero fields and operand words of the X forms (R12, R289, R302, R306, R321, R346, R388). -/
theorem test_wf_x_forms : illFormed [.mcfg 0 0 0x10000, .trap 0 0x10000, .dbgbrk 0 0x10000, .mlds 0 0 0 1, .mstr 0 0 1, .xcan 0 0 0 1,
  .snew 0 0 0 1, .sarr 0 0 0 1, .ssetPdone 0 0 1, .ssetTouch 0 0 1, .sqry 0 0 0 1, .align 0 1, .tlbinv 0 1, .pmig 0 1, .mswap 0 0 0x400000,
  .mzero 0 0 0 0x20000000, .mzero 0 0 31 0x400000, .mdrn 0 0 0 0 0 1, .mdrn 0 0 6 0 0 0, .mdrn 0 0 3 1 0 0, .xcopy 0 0 0x10000000,
  .xput 0 0 0x10000000, .xget 0 0 0x10000000, .xgath 0 0 5 0, .xputEfq 0 0 0 3 0 0, .xputEfq 0 0 0 0 0 0x10000000] = true := by decide
/-- Words of unassigned majors do not decode (R84): majors 0x0C, 0x25, 0x57, 0x7E and 0x7F, and a word of zeros (R85). -/
theorem test_decode_refuses : [0x18000000, 0x4A000000, 0xAE000000, 0xFC000000, 0xFE000000, 0].all (fun w => decode w 0 == none) = true := by decide

/-! ## Small states -/

/-- A scalar token. -/
def num (n : Nat) : Token := ⟨.ofNat 512 n, 0⟩
/-- A token whose every byte is null. -/
def nulls : Token := ⟨0, BitVec.allOnes 64⟩
/-- A slot with its operand tokens, of an instruction that has not fired. -/
def slot (w : Word32) (a b p : Option Token) : Slot := ⟨w, a, b, p, false, 0⟩
/-- A block at 0x1000 whose window holds that slot and one with empty operand slots. -/
def blk (sl : Slot) : Block :=
  { newBlock 0x1000 (List.replicate 16 0) [] with slots := [sl, slot 0 none none none], starting := none }
/-- Strand 0 of a core runs the block, and its slot 0 is firing. Core 0 is a supervisor core, core 4 a user core. -/
def running (c : Nat) (b : Block) : State :=
  { (State.reset.onStrand c 0 fun d => { d with block := some b, phase := .running }) with cur := (c, 0, 0) }

theorem running_fires (c : Nat) (b : Block) (sl : Slot) (pr : BitVec 2) (hb : b.slots[0]? = some sl) (hf : sl.fired = false)
    (hp : predMet pr sl.p = true) : Fires (running c b) pr b sl := by
  refine ⟨?_, hb, hf, hp⟩
  simp [running, State.curBlock, State.onStrand, State.onCore, State.strand, State.core, State.reset, aput, aget, Core.reset]

/-- Operands of a two-operand form under each PR: a mask of ones, or a scalar predicate that matches. -/
def sl2 (pr : BitVec 2) : Slot := slot 0 (some (num 6)) (some (num 7)) (some (num (if pr = 2 then 0 else 2^64 - 1)))

theorem sl2_fires (c : Nat) (pr : BitVec 2) : Fires (running c (blk (sl2 pr))) pr (blk (sl2 pr)) (sl2 pr) := by
  apply running_fires
  · rfl
  · rfl
  · revert pr; decide +kernel

/-! ## Hypotheses that are met: compute forms -/

theorem wit_IntegerLanes_DivisionNeverFaults_TestsGiveMaskTokens : (∀ pr : BitVec 2, ∃ (s : State) (b : Block) (sl : Slot) (x y : Token),
    Fires s pr b sl ∧ sl.a = some x ∧ sl.b = some y ∧ targetsFree b 0x41 0x81 = true ∧ targetsFree b 0 0 = true ∧
    targetsFree b 0x20 0x2F = true ∧ targetFree b 0xC1 = true) ∧
    (laneTable2.all fun e => (e.1 3 5 0 0).wf) = true ∧ (laneTable1.all fun e => (e.1 2 0 0 0).wf) = true ∧
    (laneTableImm.all fun e => (e.1 1 5 7 0).wf) = true ∧ (laneTableDiv.all fun e => (e.1 1 5 0 0).wf) = true ∧
    (testTable2.all fun e => (e.1 1 2 0 0).wf) = true ∧ (testTableImm.all fun e => (e.1 0 1 0 0).wf) = true :=
  ⟨fun pr => ⟨running 4 (blk (sl2 pr)), blk (sl2 pr), sl2 pr, num 6, num 7, sl2_fires 4 pr, rfl, rfl, rfl, rfl, rfl, rfl⟩,
    by decide, by decide, by decide, by decide, by decide, by decide⟩

theorem wit_ConstantsMovesAndSelect : (Instr.genc 1 5 0 0).wf = true ∧ (Instr.nul 1 5 0).wf = true ∧ (Instr.viota 1 5 0 0).wf = true ∧
    (Instr.mov 3 0x41 0x81).wf = true ∧ ∀ pr : BitVec 2, pr ≠ 0 → (Instr.sel pr 5 0x41 0x81).wf = true ∧
      ∃ (s : State) (b : Block) (sl : Slot) (x y p : Token), Fires s pr b sl ∧ s.curBlock = some b ∧ b.slots[s.cur.2.2]? = some sl ∧
        sl.fired = false ∧ sl.a = some x ∧ sl.b = some y ∧ sl.p = some p ∧ targetsFree b 0x41 0x81 = true :=
  ⟨rfl, rfl, rfl, rfl, fun pr h => ⟨by revert pr; decide +kernel,
    ⟨running 4 (blk (sl2 pr)), blk (sl2 pr), sl2 pr, _, _, _, sl2_fires 4 pr, (sl2_fires 4 pr).inWindow, rfl, rfl, rfl, rfl, rfl, rfl⟩⟩⟩

theorem wit_PermutesAndCompress_ScanAndReductionsSkipNulls : ∃ (s : State) (b : Block) (sl : Slot) (x y : Token),
    vecShape 5 = true ∧ Fires s 1 b sl ∧ sl.a = some x ∧ sl.b = some y ∧ targetsFree b 0x41 0x81 = true ∧
    (Instr.vins 1 5 15 0 0).wf = true ∧ (Instr.vins 1 2 7 0 0).wf = true ∧ (Instr.vslide 1 5 63 0).wf = true ∧
    (Instr.vslide 1 5 (-63) 0).wf = true ∧ (Instr.vext 1 5 63 0).wf = true ∧ (Instr.vcmpr 1 5 0 0).wf = true ∧
    (List.range 64).filterMap (fun i => gateOpt 1 sl.p i (laneOpt (laneW 5) x i)) ≠ [] ∧
    (List.range 64).filterMap (fun i => gateOpt 1 sl.p i (laneOpt (laneW 5) nulls i)) = [] :=
  ⟨running 4 (blk (sl2 1)), blk (sl2 1), sl2 1, num 6, num 7, rfl, sl2_fires 4 1, rfl, rfl, rfl, rfl, rfl, rfl, rfl, rfl, rfl,
    by decide +kernel, by decide +kernel⟩

theorem wit_RoundingIsCorrect : f32 ∈ allFormats ∧ b8Fmt true 7 true ∈ allFormats ∧ (3 : Nat) < 4 ∧ (true = true → f32.sgn = true) := by
  decide
theorem wit_QuotientsAndRootsRoundOnce : decodeF f16 1 = .num false 1 (-24) ∧ decodeF f16 0x8001 = .num true 1 (-24) ∧
    decodeF f32 0x3F800000 = .num false 0x800000 (-23) ∧ decodeF bf16 0x3F80 = .num false 0x80 (-7) := by decide
theorem wit_ExactSumsAndSpecialOperands : 0 < 2 ∧ ((2 : Nat) : Rat) * ratPow2 0 = ((1 : Nat) : Rat) * ratPow2 1 ∧
    exIsNan (.inf true) = false ∧ Ex.inf true ≠ .inf (!true) ∧ exIsNan (.num true 1 0) = false ∧ exIsZero (.num true 1 0) = false ∧
    -- 3.0 and -2.5 for FEXP2, 2.0 and 3.0 for FLOG2
    decodeF f32 0x40400000 = .num false 0xC00000 (-22) ∧ decodeF f32 0xC0200000 = .num true 0xA00000 (-22) ∧
    decodeF bf16 0x4000 = .num false 0x80 (-6) ∧ (exRat (.num false 0xC00000 (-22))).getD 0 = ((3 : Int) : Rat) ∧
    ((-3 : Int) : Rat) < (exRat (.num true 0xA00000 (-22))).getD 0 ∧ (exRat (.num true 0xA00000 (-22))).getD 0 < ((-3 : Int) : Rat) + 1 ∧
    (exRat (.num false 0x80 (-6))).getD 0 = ratPow2 1 ∧ ratPow2 1 < (exRat (.num false 0xC00000 (-22))).getD 0 ∧
    (exRat (.num false 0xC00000 (-22))).getD 0 < ratPow2 (1 + 1) := by
  decide +kernel

theorem wit_FloatElementsTestsAndReductions : ∀ pr : BitVec 2, ∃ (s : State) (b : Block) (sl : Slot) (x y z : Token),
    (1 : BitVec 2) ≠ 3 ∧ floatShape 1 4 = true ∧ floatShape 0 1 = true ∧ sl.a = some x ∧ targetsFree b 0x41 0x81 = true ∧ Fires s pr b sl ∧
    sl.b = some y ∧ s.curBlock = some b ∧ b.slots[s.cur.2.2]? = some sl ∧ sl.fired = false ∧ sl.p = some z :=
  fun pr => ⟨running 4 (blk (sl2 pr)), blk (sl2 pr), sl2 pr, num 6, num 7, _, by decide, rfl, rfl, rfl, rfl, sl2_fires 4 pr, rfl,
    (sl2_fires 4 pr).inWindow, rfl, rfl, rfl⟩

theorem wit_VmaxexpUpdatesRunningState : ∃ (s : State) (b : Block) (sl : Slot) (x y z : Token),
    (2 : BitVec 2) ≠ 3 ∧ floatShape 2 4 = true ∧ s.curBlock = some b ∧ b.slots[s.cur.2.2]? = some sl ∧ sl.fired = false ∧
    sl.a = some x ∧ sl.b = some y ∧ sl.p = some z ∧ targetsFree b 0x41 0x81 = true ∧
    (laneOpt 32 y 0).isSome = true ∧ (laneOpt 32 y 1).isSome = true ∧ (laneOpt 32 z 0).isSome = true ∧ laneOpt 32 nulls 0 = none :=
  ⟨running 4 (blk (sl2 0)), blk (sl2 0), sl2 0, num 6, num 7, _, by decide, rfl, (sl2_fires 4 0).inWindow, rfl, rfl, rfl, rfl, rfl, rfl,
    rfl, rfl, rfl, rfl⟩

theorem wit_ConversionsAndPacking_TableLookupAndQuantise : (Instr.cvt 1 1 1 4 0 4 0x41).wf = false ∧ (Instr.cvt 1 1 1 4 1 4 0x41).wf = true ∧
    (Instr.cvt 1 5 0 0 2 6 0x41).wf = true ∧ (Instr.cvt 0 0 0 0 0 7 0x41).wf = true ∧ (Instr.cvtB8 1 1 1 4 3 0 7 0x41).wf = true ∧
    (Instr.cvtB8 1 5 0 0 7 0 1 0x41).wf = true ∧ ([6, 4, 3].all fun sh => (Instr.lut4 3 sh 0x41 0x81).wf && (Instr.i4pk 0 sh 0x41 0x81).wf) = true ∧
    -- the largest BF16 and a number above it; a format without sign; codes of integers and of formats
    ((2^8 - 1 : Nat) : Rat) * ratPow2 120 ≤ magRat bf16 bf16.maxCode ∧ magRat bf16 bf16.maxCode < ((2^8 : Nat) : Rat) * ratPow2 120 ∧
    (b8Fmt true 3 false).sgn = false ∧ bf16.sgn = true ∧ bf16 ≠ e2m1 ∧ (2 : BitVec 4).toNat < 3 ∧ 3 ≤ (3 : BitVec 4).toNat ∧
    -- blocks with a NaN, of zeros, and with the largest magnitude 6 = 1.5 * 2^2
    exRat .nan = none ∧ exRat (.num true 0 0) = some 0 ∧ exRat (.num false 3 1) = some 6 ∧ ratPow2 (0 + 2) ≤ 6 ∧ 6 < ratPow2 (0 + 2 + 1) ∧
    ∀ pr : BitVec 2, ∃ (s : State) (b : Block) (sl : Slot) (x y : Token), Fires s pr b sl ∧ sl.a = some x ∧ sl.b = some y ∧
      targetFree b 0xC1 = true ∧ targetsFree b 0x41 0x81 = true :=
  ⟨by decide, by decide, by decide, by decide, by decide, by decide, by decide, by decide +kernel, by decide +kernel, rfl, rfl, by decide,
    by decide, by decide, rfl, by decide +kernel, by decide +kernel, by decide +kernel, by decide +kernel,
    fun pr => ⟨running 4 (blk (sl2 pr)), blk (sl2 pr), sl2 pr, num 6, num 7, sl2_fires 4 pr, rfl, rfl, rfl, rfl⟩⟩

/-! ## Hypotheses that are met: memory, channels, exits and system forms -/

/-- The firing of slot 0 with operand tokens on core `c`. -/
def mem1 (c : Nat) (x y : Token) : State := running c (blk (slot 0 (some x) (some y) none))
def memSlot (x y : Token) : Slot := slot 0 (some x) (some y) none

theorem mem1_fires (c : Nat) (x y : Token) : Fires (mem1 c x y) 0 (blk (memSlot x y)) (memSlot x y) :=
  running_fires c _ _ 0 rfl rfl rfl

/-- A load that nothing makes wait, in its place and with no value kept (the parts of `LoadGoes`). -/
def goes (s : State) (b : Block) (lsid : BitVec 5) (loc : Bool) (a : Word) (z : Nat) : Bool :=
  let far := farLoad s loc a
  !againOk s s.cur.1 s.cur.2.1 b far s.cur.2.2 && b.outst.isEmpty && b.guess.isEmpty &&
  mayLoad s s.cur.1 s.cur.2.1 b far lsid.toNat && inPlace s s.cur.1 s.cur.2.1 b ordersLoads true far lsid.toNat &&
  !loadWaits s (s.src lsid) b loc a z
/-- The state with the first device's port up and the route to node 5 through it. -/
def withPort (s : State) : State := { s with routes := [(5, 0)], ports := [(0, { s.port 0 with st := .up })] }

/-- A load over a 64-byte boundary goes out in two parts, one of 64 bytes in one. -/
theorem wit_GlobalLoadsGoOut : (let x := num 0x7F0000000000103C
    let s := mem1 4 x (num 7)
    let a := v64 x 0
    (3 : BitVec 3).toNat < 5 ∧ nullIn x 8 = false ∧ goes s (blk (memSlot x (num 7))) 31 false a 8 = true ∧
    (parts64 a 8).length = 2 ∧ badPart s a (parts64 a 8) = none ∧ isRemote (s.norm a) = false ∧
    ((parts64 a 8).all fun p => tlbAllows s (a + .ofNat 64 p.1) false && l1Allows s (a + .ofNat 64 p.1)) = true) ∧
    (let x := num 0x7F00000000001040
    let a := v64 x 0
    a.toNat % 64 = 0 ∧ (parts64 a 64).length = 1 ∧ badPart (mem1 4 x x) a (parts64 a 64) = none) ∧
    (let x := num 0x0500000000001040
    let s := withPort (mem1 4 x x)
    let a := v64 x 0
    isRemote (s.norm a) = true ∧ badPart s a (parts64 a 64) = none ∧ goes s (blk (memSlot x x)) 0 false a 64 = true ∧
    tlbAllows s a false = true ∧ l1Allows s a = true) := by decide +kernel

/-- The last eight bytes of the Loft; an address with a null byte. -/
theorem wit_LoftAndNullLoads : (let x := num 0x17FF8
    let s := mem1 4 x (num 7)
    let a := v64 x 0
    let k := s.core 4
    nullIn x 8 = false ∧ goes s (blk (memSlot x (num 7))) 0 true a 8 = true ∧
    localOk k s.user k.protbase.toNat k.protlimit.toNat a 8 false = true ∧ loftBad k ((localBytes k a 8 false).getD []) = false ∧
    bits a 17 3 = 0) ∧
    -- window 1 decodes 4-bit elements to BF16
    (let x := num 0x20040
    let s := (mem1 4 x (num 7)).onCore 4 fun k => { k with wincfg := k.wincfg.set 0 (1 + 5 * 2^14) }
    let a := v64 x 0
    let k := s.core 4
    goes s (blk (memSlot x (num 7))) 0 true a 64 = true ∧ a.toNat % 64 = 0 ∧
    localOk k s.user k.protbase.toNat k.protlimit.toNat a 64 false = true ∧ loftBad k ((localBytes k a 64 false).getD []) = false ∧
    bits a 17 3 ≠ 0) ∧
    nullIn nulls 8 = true ∧ targetFree (blk (memSlot nulls nulls)) 0x41 = true ∧
    goes (mem1 4 nulls nulls) (blk (memSlot nulls nulls)) 0 false 0 8 = true := by decide +kernel

theorem wit_StoresAndSilentAtomicsAreHeld : (let x := num 0x7F0000000000103C
    let y := num 7
    let s := mem1 4 x y
    let a := v64 x 0
    nullIn x 8 = false ∧ nullAll y 8 = false ∧ ((blk (memSlot x y)).loads.all fun l => l.lsid ≤ 0) = true ∧
    badPart s a (parts64 a 8) = none ∧ ((parts64 a 8).all fun p => tlbAllows s (a + .ofNat 64 p.1) true) = true) ∧
    (let s := mem1 4 (num 0x17FC0) (num 7)
    localOk (s.core 4) s.user (s.core 4).protbase.toNat (s.core 4).protlimit.toNat 0x17FC0 64 true = true ∧
    (0x17FC0 : Word).toNat % 64 = 0 ∧ (0x17FC0 : Word).toNat % 64 + 64 ≤ 64) ∧
    nullIn nulls 8 = true ∧ nullAll nulls 64 = true ∧ nullIn (num 7) 4 = false ∧
    (let x := num 0x7F00000000001038
    addrOk (mem1 4 x (num 7)) ((mem1 4 x (num 7)).norm (v64 x 0)) = true ∧ (v64 x 0).toNat % 64 + 8 ≤ 64 ∧
    tlbAllows (mem1 4 x (num 7)) (v64 x 0) true = true) ∧ (4 : BitVec 3).getLsbD 2 = true ∧ (2 : BitVec 3).getLsbD 2 = false := by
  decide +kernel

/-- A returning atomic that waits to issue. -/
def waitingAtomic : Block :=
  { blk (memSlot (num 0x1000) (num 7)) with atomic := some ⟨⟨4, 0, 0, 0, 31⟩, ⟨31, 0, .amo 0x1000 true 9 true 7 0, 0, [], 0, true, 0, 0x18000⟩, true, false⟩ }

theorem wit_ReturningAtomicsProbeThenIssue : (blk (memSlot (num 0x1000) (num 7))).atomic = none ∧ nullIn (num 0x1000) 8 = false ∧
    nullIn (num 7) 16 = false ∧ nullIn nulls 8 = true ∧ targetFree (blk (memSlot nulls nulls)) 0x41 = true ∧
    (running 4 waitingAtomic).curBlock = some waitingAtomic ∧ (waitingAtomic.atomic.map fun p => p.src.idx) = some (running 4 waitingAtomic).cur.2.2 ∧
    (waitingAtomic.atomic.all fun p => mayIssue (running 4 waitingAtomic) 4 waitingAtomic p) = true := by decide +kernel

theorem wit_FencesAndCacheOperations : nullIn (num 0x7F00000000001000) 8 = false ∧ nullIn (num 128) 8 = false ∧
    nullIn nulls 8 = true ∧ fieldsOk ((mem1 4 nulls nulls).norm 0x7F00000000001000) = true := by decide +kernel

theorem wit_BadAccessesFault : nullIn (num 0x1004) 8 = false ∧ nullAll (num 0x1004) 64 = false ∧
    (let s := mem1 4 (num 0x1004) (num 7)
    let k := s.core 4
    goes s (blk (memSlot (num 0x1004) (num 7))) 3 false 0x1004 64 = true ∧
    goes s (blk (memSlot (num 0x1004) (num 7))) 3 true 0x1004 64 = true ∧ (v64 (num 0x1004) 0).toNat % 64 ≠ 0 ∧
    (0x18000 : Word).toNat % 64 = 0 ∧ localOk k s.user k.protbase.toNat k.protlimit.toNat 0x18000 64 true = false ∧
    localOk k s.user k.protbase.toNat k.protlimit.toNat 0x18000 64 false = false ∧
    goes s (blk (memSlot (num 0x1004) (num 7))) 3 true 0x18000 64 = true) ∧
    -- global addresses with a field that must be zero, and of a device that nothing reaches; atomics over a 64-byte boundary
    (let s := mem1 4 (num 0x7F01000000001000) (num 7)
    goes s (blk (memSlot (num 0x7F01000000001000) (num 7))) 3 false 0x7F01000000001000 64 = true ∧
    addrOk s (s.norm 0x7F01000000001000) = false ∧ addrOk s (s.norm 0x0500000000001000) = false ∧
    badPart s 0x7F01000000001000 (parts64 0x7F01000000001000 64) = some 0x7F01000000001000 ∧ nullIn (num 7) 16 = false) ∧
    64 < (0x103C : Word).toNat % 64 + 8 ∧ ¬(64 < (0x103C : Word).toNat % 64 + 4) ∧ (blk (memSlot (num 6) (num 7))).atomic = none := by
  decide +kernel

/-- A core whose four channels may be used, with one entry in the east one. -/
def channels (claim : Option Nat) (claims : List (Nat × Nat)) : State :=
  let s := running 138 { blk (memSlot (num 6) nulls) with claims := claims }
  let s := { s with cycle := 5 }
  (s.onCore 138 fun k => { k with chcfg := 0xF }).onChan 138 1 fun h => { h with ents := [(4, num 9)], claim := claim }

theorem wit_ChannelReadsAreSpeculative : (let s := channels none []
    let b := blk (memSlot (num 6) nulls)
    popPlace b 1 3 = some 0 ∧ mayPop s 138 0 b 3 = true ∧ claimWaits s 138 0 b = false ∧ dirOk s 138 1 = true ∧
    (seen s ((s.core 138).chan 1))[0]? = some (num 9) ∧
    ((s.core 138).chan 1).claim = none ∧ (b.claims.any fun x => x.1 == 1) = false) ∧
    (let s := channels (some 0) [(1, 0)]
    let b := { blk (memSlot (num 6) nulls) with claims := [(1, 0)] }
    ((s.core 138).chan 1).claim = some s.cur.2.1 ∧ mayPop s 138 0 b 3 = true ∧
    (seen s ((s.core 138).chan 1))[0]? = some (num 9)) := by decide +kernel

theorem wit_PushesReserveAndSendsAreHeld : (let s := mem1 4 (num 6) nulls
    dirOk s 4 1 = false ∧ (blk (memSlot (num 6) nulls)).waits.contains 0 = false) ∧
    (let s := channels none []
    dirOk s 138 1 = true ∧ nullAll nulls 64 = true ∧ nullAll (num 6) 64 = false ∧ neighbour 138 1 = some 139 ∧ neighbour 138 3 = some 135 ∧
    ((s.core 139).chan (opposite 1)).ents.length + ((s.core 139).chan (opposite 1)).resv < 8) ∧
    (let s := (channels none []).onChan 139 3 fun h => { h with resv := 8 }
    8 ≤ ((s.core 139).chan (opposite 1)).ents.length + ((s.core 139).chan (opposite 1)).resv) ∧
    nullIn (num 8191) 8 = false ∧ (v64 (num 8191) 0).toNat < 8192 ∧ isSup 8191 = false ∧ ¬((v64 (num 8192) 0).toNat < 8192) ∧
    isSup 6147 = true ∧ isSup 6148 = false := by decide +kernel

theorem wit_ExitsFixTheirTargetOrFault : (mem1 4 (num 64) nulls).inHandler = false ∧ (mem1 4 (num 64) nulls).user = true ∧
    (mem1 0 (num 64) nulls).user = false ∧ nullIn (num 64) 8 = false ∧ (v64 (num 64) 0).toNat % 64 = 0 ∧ (v64 (num 63) 0).toNat % 64 ≠ 0 ∧
    nullIn nulls 8 = true ∧ ((mem1 4 (num 64) nulls).onStrand 4 0 fun d => { d with hnd := true }).inHandler = true := by decide +kernel

/-- An operand of TLBINV and one of PMIG that their checks pass (R394, R273). -/
def invOperand : Token := num (1 + 2^(64 + 21) + 2^(128 + 21) + 15 * 2^192)
def migOperand : Token := num (0x7F00000000200000 + 0x400000 * 2^64)

theorem wit_SystemFormsAndRegisterReads : (mem1 4 invOperand nulls).user = true ∧ (mem1 0 invOperand nulls).user = false ∧
    nullIn nulls 40 = true ∧ nullIn invOperand 40 = false ∧ tlbinvBad invOperand = none ∧ nullIn nulls 32 = true ∧
    nullIn migOperand 32 = false ∧ pmigBad (mem1 0 migOperand nulls).sysnum migOperand = false ∧
    inHbm (v64 migOperand 1).toNat = true ∧ (v64 migOperand 1).toNat % 2^21 = 0 ∧
    ([0, 9, 0x100, 0x128, 0x200, 0x201, 0x210, 0x301].all assignedReg) = true ∧ targetFree (blk (memSlot nulls nulls)) 0x41 = true ∧
    nullAll nulls 8 = true ∧ nullAll (num 1) 8 = false ∧
    userWrites 0x200 = true ∧ userWrites 0x100 = false ∧ (mem1 0 nulls nulls).timebase.toNat + 4 < 2^64 ∧
    (mem1 0 nulls nulls).timeRead.toNat ≤ (mem1 0 nulls nulls).timebase.toNat + 4 := by decide +kernel

theorem wit_StrandAndCoreRegisterWrites : (9 : Nat) < 10 ∧ 0x100 ≤ 0x128 ∧ 0x128 < 0x129 ∧ assignedReg 0x100 = true ∧ assignedReg 0x128 = true ∧
    ((4 : Nat), (1 : Nat)) ≠ (4, 0) ∧ (5 : Nat) ≠ 4 := by decide

/-- A packet that the step in progress brings. -/
def bringing (p : Packet) (s : State) : State := { s with packet := p }

theorem wit_RegisterWriteEvents : (bringing (.tblkWrite 4 15 0x47) .reset).packet = .tblkWrite 4 15 0x47 ∧
    (bringing (.moduleRegisterWrite 0x210 0xFFFF 0 ⟨0, 0, 0, 0, 0⟩) .reset).packet = .moduleRegisterWrite 0x210 0xFFFF 0 ⟨0, 0, 0, 0, 0⟩ ∧
    (bringing (.waymaskWrite 255 0xFFFF0001 0 ⟨0, 0, 0, 0, 0⟩) .reset).packet = .waymaskWrite 255 0xFFFF0001 0 ⟨0, 0, 0, 0, 0⟩ ∧
    (0x210 : BitVec 12) ∈ [0x202, 0x203, 0x210] ∧ (∀ x ∈ State.reset.slices, ∀ e ∈ x.2.vers, e.hbm = true → e.grans = 0) ∧
    -- way 0 of slice 255 drains and is empty; way 1 does not drain; way 2 may hold a line
    (let old := { State.reset.slice 255 with maybe := 4 }
    let changed (v : Word) := v.extractLsb' 0 16 ^^^ old.tile
    (∀ w, w < 16 → (changed 0xFFFF0001).getLsbD w = true →
      ((0xFFFF0001 : Word).extractLsb' 16 16).getLsbD w = true ∧ (~~~old.maybe).getLsbD w = true) ∧
    (∃ w, w < 16 ∧ (changed 2).getLsbD w = true ∧ ((2 : Word).extractLsb' 16 16).getLsbD w = false) ∧
    (∃ w, w < 16 ∧ (changed 0x40004).getLsbD w = true ∧ (~~~old.maybe).getLsbD w = false) ∧
    (old.vers.any fun e => inWay e 0) = false ∧
    inWay { newVer ⟨0, 1, 1⟩ ⟨64, 16, 1, 0, false, false, none, none⟩ with grans := 1, at_ := 2048 } 1 = true) :=
  ⟨rfl, rfl, rfl, by decide, by decide, by decide +kernel⟩

/-! ## Hypotheses that are met: tiles and commands -/

/-- The firing of an instruction whose words are its own encoding. -/
def coded (i : Instr) (x y : Token) : State := running 4 (blk (slot ((encode i).getD 0 0) (some x) (some y) none))
def codedBlk (i : Instr) (x y : Token) : Block := blk (slot ((encode i).getD 0 0) (some x) (some y) none)
/-- The instruction's words are its slot's word and its argument, and no other tile form of the block meets it. -/
def fits (i : Instr) (x y : Token) (arg : BitVec 32) : Bool :=
  encode i == [(encode i).getD 0 0, arg] && tileClash (codedBlk i x y) 0 == none && (coded i x y).curBlock == some (codedBlk i x y)

/-- A reference to version 1 of tile 1, one with VER 0, and operands of each form (R247-R250). -/
def ref11 : Token := num (2^32 + 1)
def ref10 : Token := num (2^32)
def newTok : Token := num (64 + 64 * 2^32)
def forkTok : Token := num (2^32 + 2 + 2^64 * (64 + 64 * 2^32))
def locNew : Token := num (64 + 64 * 2^17 + 64 * 2^34)
def locFork : Token := num (2^32 + 2 + 2^64 * (64 + 64 * 2^17 + 64 * 2^34))

theorem wit_TileFormsAreHeld :
    (fits (.tnew 0 3 1 0 0x7FFF) ref11 newTok 0x7FFF && fits (.tst 0 3 4 0) ref11 ref11 0 && fits (.tfork 0 3 0xFFF) ref11 forkTok 0xFFF &&
     fits (.talias 0 3 7) ref11 ref11 7 && fits (.tguard 0 3 0) ref11 ref11 0 && fits (.tseal 0 3 0x80000000) ref11 ref11 0x80000000 &&
     fits (.tsealEnd 0 3 64) ref11 ref11 64 && fits (.thold 0 3 0) ref11 ref11 0 && fits (.trel 0 3 0) ref11 ref11 0 &&
     fits (.tsub 0 3 0x7FF7E) ref11 ref11 0x7FF7E && fits (.tpin 0 3 0) ref11 ref11 0 && fits (.tunpin 0 3 0) ref11 ref11 0 &&
     fits (.tmove 0 3 1 0) ref11 ref11 0 && fits (.tnewLoc 0 3 0x7FF) ref11 locNew 0x7FF && fits (.tstLoc 0 3 3 0) ref11 ref11 0 &&
     fits (.tforkLoc 0 3 255) ref11 locFork 255 && fits (.taliasLoc 0 3 255) ref11 ref11 255 && fits (.tsealLoc 0 3 1 0) ref11 ref11 0 &&
     fits (.tholdLoc 0 3 0) ref11 ref11 0 && fits (.trelLoc 0 3 0) ref11 ref11 0) = true ∧
    nullIn nulls 8 = true ∧ nullIn ref11 16 = false ∧ nullAll ref11 64 = false ∧
    (v64 ref10 0).toNat % 2^32 = 0 ∧ (v64 ref11 0).toNat % 2^32 ≠ 0 ∧
    -- TNEW, TFORK, TST and their local forms: the operand's fields
    bits (v64 newTok 0) 28 4 = 0 ∧ bits (v64 newTok 0) 60 4 = 0 ∧ bits (v64 newTok 0) 32 28 ≤ bits (v64 newTok 0) 0 28 ∧
    bits (v64 forkTok 0) 0 32 ≠ 0 ∧ bits (v64 forkTok 1) 28 4 = 0 ∧ bits (v64 forkTok 1) 60 4 = 0 ∧
    bits (v64 forkTok 1) 0 28 ≤ bits (v64 forkTok 1) 32 28 ∧ 0 + (v64 ref11 1).toNat < 2^28 ∧
    bits (v64 ref11 0) 16 16 = 0 ∧ bits (v64 ref11 0) 38 26 = 0 ∧ bits (v64 (num (2^40)) 0) 38 26 ≠ 0 ∧
    bits (v64 locNew 0) 51 13 = 0 ∧ bits (v64 locNew 0) 17 17 ≤ bits (v64 locNew 0) 0 17 ∧ bits (v64 locNew 0) 34 17 % 64 = 0 ∧
    (let s := coded (.tnewLoc 0 3 0) ref11 locNew
    rawOk s.user (s.core 4).protbase.toNat (s.core 4).protlimit.toNat (bits (v64 locNew 0) 34 17) (bits (v64 locNew 0) 0 17) = true) ∧
    bits (v64 locFork 1) 51 13 = 0 ∧ bits (v64 locFork 1) 0 17 ≤ bits (v64 locFork 1) 17 17 ∧
    bits (v64 locFork 1) 34 17 % 64 = 0 := by decide +kernel

theorem wit_TileReads : (fits (.tld 0 3 4 1 0x41 0) ref11 (num 64) 0 && fits (.twait 0 3 0x41 0) ref11 ref11 0 &&
     fits (.tqry 0 3 1 0x41 0) ref11 ref11 0 && fits (.tldLoc 0 3 3 0 0x41 8) ref11 (num 0) 8 &&
     fits (.twaitLoc 0 3 0x41 0) ref11 ref11 0 && fits (.tqryLoc 0 3 0x41 0) ref11 ref11 0) = true ∧
    nullIn ref11 8 = false ∧ nullIn nulls 8 = true ∧ (v64 ref11 0).toNat % 2^32 ≠ 0 ∧ (v64 (num 64) 0).toNat + 0 < 2^28 ∧
    ((v64 (num 64) 0).toNat + 0) % 64 = 0 ∧ targetFree (codedBlk (.twait 0 3 0x41 0) ref11 ref11) 0x41 = true ∧
    (coded (.twait 0 3 0x41 0) ref11 ref11).cur.2.1 < 16 ∧
    mayRead (coded (.tld 0 3 4 1 0x41 0) ref11 (num 64)) 4 0 (codedBlk (.tld 0 3 4 1 0x41 0) ref11 (num 64)) false 3 = true ∧
    mayRead (coded (.twait 0 3 0x41 0) ref11 ref11) 4 0 (codedBlk (.twait 0 3 0x41 0) ref11 ref11) false 3 = true ∧
    mayRead (coded (.tldLoc 0 3 3 0 0x41 8) ref11 (num 0)) 4 0 (codedBlk (.tldLoc 0 3 3 0 0x41 8) ref11 (num 0)) true 3 = true ∧
    mayRead (coded (.twaitLoc 0 3 0x41 0) ref11 ref11) 4 0 (codedBlk (.twaitLoc 0 3 0x41 0) ref11 ref11) true 3 = true ∧
    (codedBlk (.tld 0 3 4 1 0x41 0) ref11 (num 64)).outst = [] ∧
    -- a local version of 64 bytes that is readable
    (let s := (coded (.tldLoc 0 3 3 0 0x41 8) ref11 (num 0)).onCore 4 fun k =>
      { k with lvt := aput k.lvt 1 { aget k.lvt 1 LVer.reset with state := .sealed_, ver := 1, size := 64 } }
    lvtLook s 4 1 1 = some .readable ∧ 8 + 8 ≤ (s.lvt 4 1).size ∧ (s.core 4).loftPoison = []) := by decide +kernel

/-- Matrix descriptors: the Loft from 0x100 on, 64 rows of 64 bytes; and a version, with a completion version (R307). -/
def loftDesc : Token := num (0x100 + 2^64 * (4 * 2^4 + 63 * 2^16))
def tileDesc : Token := num (2^32 + 1 + 2^64 * (2 + 2 * 4 + 4 * 2^4 + 63 * 2^16) + 2^192 * (2^33 + 1))

theorem wit_CommandFormsAreHeld : matCfgOk 0xFFFF = false ∧ matCfgOk 0 = true ∧ nullIn nulls 32 = true ∧ nullIn loftDesc 32 = false ∧
    (let d := matDesc loftDesc
    let k := (coded (.mstr 0 3 0) loftDesc nulls).core 4
    d.dk = 0 ∧ d.ck < 3 ∧ bits (v64 loftDesc 1) 31 33 = 0 ∧ d.stride ≠ 0 ∧ bits (v64 loftDesc 2) 28 36 = 0 ∧ v64 loftDesc 2 = 0 ∧
    d.a.toNat % 16 = 0 ∧ d.rows = 64 ∧ d.first = 0 ∧ rangeOk k true k.protbase.toNat k.protlimit.toNat d.a (d.rows * d.stride) true = true ∧
    64 * mdrnWidth 3 ≤ d.stride) ∧
    (let d := matDesc tileDesc
    d.dk = 2 ∧ d.ck = 2 ∧ d.stride ≠ 0 ∧ cmdRefOk false d.a = true ∧ cmdRefOk false d.c = true ∧ d.off + d.rows * d.stride ≤ 2^28) ∧
    bits (v64 (num (2^(128 + 28))) 2) 28 36 ≠ 0 ∧ targetFree (blk (memSlot nulls nulls)) 0x41 = true ∧
    (mem1 4 ref11 ref11).curBlock = some (blk (memSlot ref11 ref11)) ∧
    ([⟨0, true, 1, 64⟩, ⟨1, false, 4, 16⟩, ⟨2, false, 16, 4⟩] : List EngForm).all (fun f => decide (f.fn ≤ 3) && f.fn != 3 && (!f.exp || f.fn == 0)) = true ∧
    (⟨3, false, 1, 64⟩ : EngForm).fn ≤ 3 ∧
    ([⟨true, false, false, 3, 0, 64⟩, ⟨false, true, true, 4, 1, 64⟩] : List LinkForm).all (fun f => !f.get || (!f.efq && !f.fold)) = true := by
  decide +kernel

/-! ## Hypotheses that are met: blocks, boundaries and traps -/

/-- Bytes of a number in memory. -/
def poke (m : Mem) (a n v : Nat) : Mem := memPutAll m a ((leBytes v n).map some)

/-- Tables of ASID 0 in die 0 that map the 64 MiB at virtual address 0 to 0x4000000, for every use (R266-R268), and over the
boundary of its two pages a block of one HALT whose read slot 0 sends G3 to write slot 0, G3 too (R60-R62). -/
def tables (m : Mem) : Mem :=
  poke (poke (poke (poke m 0 8 0x100001) 0x100000 8 0x200001) 0x200000 8 0x400001F) 0x200008 8 0x600001F
def image (m : Mem) : Mem :=
  poke (poke (poke (poke m 0x5FFFFC0 4 0xB0000000) 0x5FFFFC8 4 0x8620) 0x5FFFFE8 4 0x86) 0x6000000 4 (((encode (.halt 0 0)).getD 0 0).toNat)
/-- Core 4's strand 0 is at the boundary before that block. -/
def atBoundary : State :=
  let s := State.reset.onStrand 4 0 fun d => { d with bpc := 0x7F00000001FFFFC0, phase := .boundary, live := true }
  { s with mem := image (tables []) }

def fetched : Except (Nat × Word) (List Word32 × List Word32) := (fetchBlock atBoundary 4 true 0x7F00000001FFFFC0).1

/-- The header words that predecode passes (R36, R61), as the statement says it. -/
def headGood (ev : Nat) (hdr : List Word32) : Bool :=
  let field (i lo n : Nat) : Nat := (hw hdr i).toNat / 2^lo % 2^n
  let slotBad (x top zero : Nat) : Bool := if x / 2^top % 2 = 1 then x / 2^zero % 2 == 1 else x != 0
  (List.range 16).all fun i => !(
    if i = 0 then field 0 28 4 != 0xB || (ev == 1 && decide (3 < field 0 25 3)) || field 0 0 24 != 0
    else if i = 1 then ev == 1 && field 1 16 16 != 0
    else if i < 10 then slotBad (field i 0 16) 15 8 || slotBad (field i 16 16) 15 8
    else if i < 14 then (decide (12 ≤ i) && ev != 3 && hw hdr i != 0) || (List.range 4).any fun j => slotBad (field i (8 * j) 8) 7 0
    else hw hdr i != 0)
/-- A header without slots, for user code or with bit 24 for supervisor code; one HALT. -/
def bareHead (sup : Bool) : List Word32 := (if sup then 0xB1000000 else 0xB0000000) :: List.replicate 15 0
def haltBody : List Word32 := [(encode (.halt 0 0)).getD 0 0]

theorem wit_PredecodeRefuses : headGood 3 (bareHead false) = true ∧ headGood 3 (bareHead true) = true ∧ headGood 3 [0] = false ∧
    (hw (bareHead true) 0).toNat / 2^24 % 2 = 1 ∧ (hw (bareHead false) 0).toNat / 2^24 % 2 = 0 ∧
    firstWords [0x18000000] = [(0, 0x18000000)] ∧ decode 0x18000000 0 = none ∧
    firstWords haltBody = [(0, haltBody.getD 0 0)] ∧ decode (haltBody.getD 0 0) 0 = some (.halt 0 0) ∧ (Instr.halt 0 0).wf = true ∧
    isX (haltBody.getD 0 0) = false ∧ hasLsid (haltBody.getD 0 0) = false := by decide +kernel

/-- A strand with every kind of trap pending, each behind the one before it (R384). -/
def due4 : Strand :=
  { Strand.reset false with
    status := 2, commitTraps := [⟨9, 0, 1, 0, 0, 0⟩], report := some ⟨0x10, 0, 1, 0, 0, 0⟩
    timer := some 1, ext := [(2, 5), (7, 6)], warn := some 3 }
theorem wit_TrapsPend : (Strand.reset false).status = 2 ∧ due4.status.getLsbD 1 = true ∧ ({ due4 with status := 0 }).status.getLsbD 1 = false ∧
    due4.commitTraps = ⟨9, 0, 1, 0, 0, 0⟩ :: [] ∧ due4.report = some ⟨0x10, 0, 1, 0, 0, 0⟩ ∧ due4.timer = some 1 ∧
    due4.ext.Pairwise (fun x y => x.1 < y.1) ∧ (7, 6) ∈ due4.ext ∧ (0 : BitVec 8).getLsbD 7 = false ∧
    (∀ q ∈ due4.ext, (0 : BitVec 8).getLsbD q.1 = false → q.1 ≤ 7) ∧ (∀ q ∈ due4.ext, (0xFF : BitVec 8).getLsbD q.1 = true) := by
  decide +kernel

theorem wit_BlockFetchStartsTheBlock :
    -- a pre-empt, a pending interrupt, a fetch that fails, a header that fails predecode
    preempted ((atBoundary.onStrand 4 0 fun d => { d with preempt := some 0 }).strand 4 0) = true ∧
    preempted (atBoundary.strand 4 0) = false ∧
    (nextTrap (atBoundary.core 4).priomask ((atBoundary.onStrand 4 0 fun d => { d with timer := some 7 }).strand 4 0)).isSome = true ∧
    nextTrap (atBoundary.core 4).priomask (atBoundary.strand 4 0) = none ∧ (atBoundary.strand 4 0).block = none ∧
    (match (fetchBlock State.reset 4 true 0x7F00000000001000).1 with | .error e => e == (7, 0x7F00000000001000) | .ok _ => false) = true ∧
    predecode 3 true [0] [0] = some (1, 0x100) ∧
    -- a block that starts
    evOf (atBoundary.strand 4 0) = 3 ∧ (atBoundary.strand 4 0).phase ≠ .entering ∧
    (match fetched with
     | .error _ => false
     | .ok (hdr, body) =>
       let b0 := { newBlock 0x7F00000001FFFFC0 hdr body with starting := none }
       predecode 3 true hdr body == none && readSlots hdr == [0x8620] && ((readSlots hdr).all fun x => targetFree b0 (rsTarget x)) &&
       (readSlots hdr).length == 1) = true ∧
    ((firstWords [0x21000000]).all fun w => !firesAtStart w.2) = true := by decide +kernel

/-- A block with an exit of that kind and its write slot 0, G3, filled; and its strand. -/
def exiting (kind : ExitKind) : Block :=
  { newBlock 0x1000 (0xB0000000 :: List.replicate 9 0 ++ [0x86] ++ List.replicate 5 0) (List.replicate 8 0) with
    wr := some (num 9) :: List.replicate 15 none, exit := some ⟨0, kind, 0x2000⟩, starting := none }
def ending (c : Nat) (kind : ExitKind) : State :=
  State.reset.onStrand c 0 fun d => { d with block := some (exiting kind), phase := .running, live := true, rbpc := some 0x40 }

theorem wit_CommitMergesAndExits : [ExitKind.br, .bri, .yield, .halt, .scall 5, .tret, .hret].all (fun kind =>
    let d := (ending 0 kind).strand 0 0
    d.block == some (exiting kind) && (exiting kind).late.isNone && (exiting kind).exit == some ⟨0, kind, 0x2000⟩ &&
    (exiting kind).sysw.isEmpty && (exiting kind).forms.isEmpty && !preempted d && !d.status.getLsbD 2 && d.live && d.preempt.isNone &&
    d.rbpc.isSome && (exiting kind).held.isEmpty && d.ackTiles == 0 && d.report.isNone) = true ∧
    wsValid (writeSlot (exiting .br).hdr 0) = true ∧ slotReg (exiting .br) 0 = 3 ∧
    (exiting .br).wr[0]? = some (some (num 9)) := by decide +kernel

theorem wit_CommitReleasesHeldEffects : (let b := { exiting .br with
      held := [⟨3, 0, .store 0x1000 true 0 [some 7], 0, [], 0, true, 0, 0x18000⟩,
               ⟨5, 1, .inv 0x7F00000000001000 128, 0, [], 0, true, 0, 0x18000⟩, ⟨6, 2, .fence 2 5, 0, [], 0, true, 0, 0x18000⟩]
      claims := [(1, 2)], sysw := [(0, 0x122, 0, num 0x7F)], snews := [(4, 0, 9)] }
    b.held.Pairwise (fun x y => x.lsid ≤ y.lsid) ∧ (b.exit.map (·.kind)) = some .br ∧
    (b.claims.all fun q => b.claims.all fun r => q.1 != r.1 || q == r) = true ∧ b.claims.Nodup ∧
    (b.sysw.all fun w => 0x100 ≤ w.2.1.toNat && w.2.1.toNat < 0x129) = true ∧ b.late = none ∧
    (num 0x7F).nul.extractLsb' 0 8 = 0 ∧ assignedReg 0x122 = true ∧ (0x122 : BitVec 12) ≠ 0x126 ∧
    ((State.reset.onStrand 4 0 fun d => { d with block := some b }).strand 4 0).block = some b) ∧ (exiting .halt).sysw = [] := by decide +kernel

theorem wit_BoundsEndTheirWaits : (let s := State.reset.onStrand 4 0 fun d => { d with phase := .wfi (some 9) 5 }
    (s.strand 4 0).phase = .wfi (some 9) 5) ∧ ((State.reset.onStrand 4 0 fun d => { d with phase := .held 9 }).strand 4 0).phase = .held 9 ∧
    [true, false].all (fun irrev =>
      let b := { exiting .br with irrev := irrev }
      let d := (State.reset.onStrand 4 0 fun d => { d with block := some b, phase := .running }).strand 4 0
      d.block == some b && b.starting.isNone && !preempted d) = true := by decide +kernel

theorem wit_FaultsArePrecise : (ending 4 .br).strand 4 0 = { (ending 4 .br).strand 4 0 with block := some (exiting .br) } ∧
    (exiting .br).starting = none ∧ (exiting .br).irrev = false ∧ (exiting .br).early = [] ∧ preempted ((ending 4 .br).strand 4 0) = false ∧
    statusMode ((ending 4 .br).strand 4 0).status = false ∧ statusMode ((ending 0 .br).strand 0 0).status = true ∧ 7 % 256 = 7 := by
  decide +kernel

/-! ## Hypotheses that are met: memory, tiles and commands at their homes -/

def src0 : Src := ⟨4, 0, 0, 0, 3⟩
/-- Leaves of 32 MiB pages of device memory and of host memory. -/
def devLeaf : Leaf := ⟨0x4000000, true, true, true, true, 0, false, false, 0⟩
def hostLeaf : Leaf := { devLeaf with host := true }
def poisonAt (pa : Nat) : State := { State.reset with poison := [pa / 128] }

theorem wit_HomesPerformAccesses : (let m : MemReq := ⟨.load src0, 0x7F0000000000103C, 0, true, some 4, .read 0 8 false⟩
    wanted (mem1 4 nulls nulls) m.orig = true ∧ wanted .reset (.sb 4 0 (some src0)) = true ∧ m.op = .read 0 8 false) ∧
    devLeaf.host = false ∧ hostLeaf.host = true ∧ (agentLine .reset 0x40).d.length = 64 ∧ poisoned .reset 0x400103C = false ∧
    poisoned (poisonAt 0x400103C) 0x400103C = true ∧ (9 : BitVec 4).toNat < 10 ∧ (1 : BitVec 4).toNat < 2 ∧
    ({ State.reset with poison := [hostLine 0x40] }).poison.length = 1 ∧ hostBad { State.reset with poison := [hostLine 0x40] } 0x40 = true ∧
    hostBad .reset 0x40 = false ∧ 0x3C % 64 + 32 / 8 ≤ 64 ∧ poolVer .reset 0x400103C = none ∧ fwd .reset 0x400103C = 0x400103C ∧
    -- a version in die 0's tile pool, whose second granule holds the byte
    (let e := { newVer ⟨0, 1, 1⟩ ⟨256, 256, 1, 0, false, true, none, none⟩ with grans := 2, at_ := 4, hbm := true }
    poolVer (State.reset.onSlice 3 fun k => { k with vers := [e] }) (poolAddr 0 5) = some (3, e, poolAddr 0 4)) ∧
    -- an LD.last of a DISCARDABLE page
    (let w := (encode (.ldLast 0 3 3 0 0x41)).getD 0 0
    majorOf w = 0x60 ∧ wf w 12 3 = 3 ∧ (blockOf (running 4 (blk (slot w (some (num 0)) none none))) src0).isSome = true ∧
    ({ devLeaf with disc := true }).disc = true) := by decide +kernel

/-- A block whose slot 0 holds a plain LD to slot 1, and the load is outstanding in two parts. -/
def loadWord : Word32 := (encode (.ld 0 3 3 0 0x41)).getD 0 0
def loading : Block := { blk (slot loadWord (some (num 0)) none none) with outst := [⟨0, 3, 8, List.replicate 8 none, 2, false, none, none, false, false⟩] }
/-- A store-buffer entry with an effect. -/
def entry (e : Eff) : SbEnt := ⟨7, 0, src0, 0x1000, 0, true, e, none, false, 1, [(0, 0x400103C, devLeaf)], 0, 0x18000, none, 0⟩
def buffered (e : Eff) : State := State.reset.onCore 138 fun k => { k with sb := [entry e] }
/-- Tables for ASID 0 of every use, and with a leaf that is not writable. -/
def mapped : State := { State.reset with mem := tables [] }
def readOnly : State := { State.reset with mem := poke (tables []) 0x200000 8 0x400001B }

theorem wit_AnswersAndStoreBuffer :
    (let s := running 4 loading
    blockOf s src0 = some loading ∧ loading.slots[src0.idx]? = some (slot loadWord (some (num 0)) none none) ∧ majorOf loadWord ≠ 0x70 ∧
    majorOf loadWord ≠ 0x71 ∧ targetFree loading 0x41 = true ∧ (loading.outst.find? fun o => o.idx == src0.idx).isSome = true ∧
    ((loading.outst.map fun o => o.left).all fun n => 1 < n) = true) ∧
    (let m : MemReq := ⟨.load src0, 0x7F0000000000103C, 0, true, some 4, .read 0 8 false⟩
    (match walk mapped (dieOf m.g) m.asid (vaOf m.g) with
     | .ok leaf => leaf == devLeaf && !leafBad m.g leaf m.user (opWrites m.op) false m.core
     | .error _ => false) = true ∧
    (match walk readOnly 0 0 0x103C with | .ok leaf => leafBad m.g leaf true true false (some 4) | .error _ => false) = true ∧
    (match walk .reset 0 0 0x103C with | .ok _ => false | .error k => k == 7) = true ∧ (running 4 loading).current src0 = true ∧
    sharers readOnly (some devLeaf) m = [] ∧ sharers .reset none m = [] ∧ loading.early = [] ∧ loading.doubt = none ∧
    (let n : MemReq := { m with orig := .load ⟨4, 1, 0, 0, 3⟩ }
    samePage (some devLeaf) m n = true)) ∧
    ((List.range 128).length ≤ 128) ∧
    [Eff.store 0x1000 true 0 [some 7], .store 0x7F00000000001000 false 0 [some 7],
     .tile (.tholdAtHome ⟨⟨0, 1, 1⟩, src0, 0, 0, none⟩), .push 1 (num 6), .send 4 15 0, .larder (.sqry 0),
     .cmd 0xE8000000 0 noTok noTok, .cmd 0xEC000000 0 noTok noTok, .fence 2 5].all (fun e =>
      (((buffered e).core 138).sb.find? fun x => x.seq == 7) == some (entry e)) = true ∧ neighbour 138 1 = some 139 ∧
    majorOf 0xE8000000 = 0x74 ∧ majorOf 0xEC000000 = 0x76 ∧ (entry (.fence 2 5)).tr = [(0, 0x400103C, devLeaf)] ∧
    (let s := State.reset.onSlice 0 fun k => { k with flush := 0x8000 }
    (s.slice 0).flush.getLsbD 15 = true ∧ (s.slice 0).tile.getLsbD 15 = false ∧ ((s.slice 0).vers.map Ver.ref).Nodup ∧
    (∀ x ∈ s.slices, ∀ e ∈ x.2.vers, e.hbm = true → e.grans = 0)) := by decide +kernel

/-- Version 1 of tile 1 of ASID 0, of 64 bytes. -/
def ver1 (state : VState) (pend refs : Nat) : Ver :=
  { newVer ⟨0, 1, 1⟩ ⟨64, pend, refs, 0, false, false, none, none⟩ with state := state, grans := 1 }
def r1 : Ref := ⟨0, 1, 1⟩
def req1 (v : BitVec 32) : TReq := ⟨⟨0, 1, v⟩, src0, 0x1000, 7, none⟩
/-- Its tile has these versions, the highest of them 2. -/
def tiled (vs : List Ver) : State := State.reset.onSlice (homeRef r1) fun k => { k with vers := vs, tiles := [⟨0, 1, 2, false, []⟩] }

theorem wit_TileRequestsAtHomes :
    findVer .reset r1 = none ∧
    [VState.filling, .sealed_, .poisoned].all (fun st => findVer (tiled [ver1 st 16 1]) r1 == some (ver1 st 16 1) && !(ver1 st 16 1).proxy) = true ∧
    (tileHas (tiled [ver1 .filling 16 1]) r1 [ver1 .filling 16 1]) ∧ (ver1 .filling 16 1).state = .filling ∧ (ver1 .filling 16 1).closed = false ∧
    findVer (tiled [{ ver1 .filling 0 1 with closed := true }]) r1 = some { ver1 .filling 0 1 with closed := true } ∧
    64 < 60 + ([some 1, some 2, some 3, some 4, some 5] : List (Option Byte)).length ∧ fillCount [some 1, none] < 16 ∧
    (ver1 .filling 1 1).pend = fillCount [some 1, none] ∧ (ver1 .filling 1 0).refs = 0 ∧ (ver1 .filling 1 0).waiters = [] ∧
    fillCount (List.replicate 17 (some 0)) > 16 ∧
    hwmOf .reset 0 1 < (1 : BitVec 32).toNat ∧ ¬(hwmOf (tiled []) 0 1 < (2 : BitVec 32).toNat) ∧ tileHas .reset r1 [] ∧
    entriesUsed (State.reset.slice (homeRef r1)) + 2 ≤ 8192 ∧ (place .reset (homeRef r1) 0 false).1.isSome = true ∧
    (5 : Nat) ≠ State.reset.sysnum.toNat ∧ 126 = State.reset.sysnum.toNat ∧ 16 ≤ (ver1 .filling 16 1).size ∧
    (findTile (tiled [ver1 .filling 16 0xFFF]) 0 1).isSome = true ∧ sealedHere (tiled [ver1 .sealed_ 0 1]) r1 (ver1 .sealed_ 0 1) ∧
    (ver1 .sealed_ 0 1).xref < 255 ∧ hwmOf (tiled [ver1 .sealed_ 0 1]) 0 1 < (3 : BitVec 32).toNat ∧
    predecessor (tiled [ver1 .filling 16 1]) (ver1 .filling 16 1) = none ∧
    (let w := { ver1 .filling 16 1 with ver := 2 }
    predecessor (tiled [ver1 .sealed_ 0 1, w]) w = some (ver1 .sealed_ 0 1)) ∧
    guardsUsed ((tiled [ver1 .filling 16 1]).slice (homeRef r1)) < 256 ∧
    (let g := { ver1 .filling 16 1 with guard := some ⟨⟨0, 2, 1⟩, none, none⟩ }
    findVer (tiled [g]) r1 = some g ∧ (g.guard.map (·.status)) = some none) ∧
    (State.reset.strand 4 0).halting = false ∧ (State.reset.strand 4 0).report = none := by
  simp only [tileHas, sealedHere]; decide +kernel

theorem wit_TileReadsAtHomes : sealedHere (tiled [ver1 .sealed_ 0 1]) r1 (ver1 .sealed_ 0 1) ∧ (running 4 loading).current src0 = true ∧
    (findTile (tiled []) 0 1).isSome = true ∧ (2 : BitVec 32).toNat ≤ hwmOf (tiled []) 0 1 ∧ findVer (tiled []) r1 = none ∧
    findVer (tiled [ver1 .filling 16 1]) r1 = some (ver1 .filling 16 1) ∧
    waitersUsed ((tiled [ver1 .filling 16 1]).slice (homeRef r1)) < 4096 ∧ (ver1 .filling 16 1).pend < 2^28 ∧
    (ver1 .filling 16 0xFFF).refs < 2^12 ∧ (ver1 .filling 16 1).size < 2^28 ∧
    -- a version that SYSTEM sees, of a read that is current and of one whose block is gone
    (let e := { ver1 .sealed_ 0 1 with system := true }
    let s := (running 4 loading).onSlice (homeRef r1) fun k => { k with vers := [e], tiles := [⟨0, 1, 2, false, []⟩] }
    sealedHere s r1 e ∧ e.system = true ∧ s.current src0 = true ∧ e.size ≥ 0 + 64) ∧ (ver1 .sealed_ 0 1).system = false ∧
    (tiled []).current src0 = false := by
  simp only [sealedHere]; decide +kernel

/-- A command of core 4 with its first word and operands. -/
def cmdOf (w0 w1 : Word32) (a b : Token) : Cmd :=
  { id := 9, src := src0, blk := 0x1000, asid := 0, user := true, w0 := w0, w1 := w1, a := a, b := b, base := 0, limit := 0x18000
    launch := none, run := false, parked := false, got := [], parts := 0, unacked := 0, tag := 0, failed := none, cfg := 0, at_ := 0
    wrote := [], nf := false, rout := false, luta := 0, lutb := 0, buf := [], fetched := false, rbuf := [], rfetched := false }
def firstWord (i : Instr) : Word32 := (encode i).getD 0 0
/-- Endpoints: global memory at 0x7F00000000001000; version 1 of tile 1; the latter with completion version 1 of tile 2. -/
def memEnd : Token := num 0x7F00000000001000
def verEnd : Token := num (2^32 + 1 + 2^64 * 2)
def verDone : Token := num (2^32 + 1 + 2^64 * (2 + 2 * 2^44) + 2^192 * (2^33 + 1))
def engined (c : Cmd) : State := { (tiled [ver1 .filling 16 1]) with engines := [(0, [c])] }

theorem wit_EngineCommandsRunAndEnd :
    (let c := cmdOf (firstWord (.xcopy 0 3 64)) 64 memEnd memEnd
    nextStart (engined c) 0 = some c ∧ engUnits c ≠ 0 ∧ cmdFn c = 0 ∧ c.w0.getLsbD 8 = false ∧ (endpoint c.a).kind < 2 ∧ (endpoint c.b).ck = 0 ∧
    findCmd (engined c) 0 0 c.id = some c) ∧
    cmdFn (cmdOf (firstWord (.xfill 0 3 64)) 64 memEnd memEnd) = 3 ∧
    (let c := cmdOf (firstWord (.xcopy 0 3 0)) 0 verEnd memEnd
    nextStart (engined c) 0 = some c ∧ engUnits c = 0) ∧
    (let c := cmdOf (firstWord (.xcopy 0 3 64)) 64 verEnd verEnd
    nextStart (engined c) 0 = some c ∧ engUnits c ≠ 0 ∧ cmdFn c ≠ 3 ∧ (endpoint c.a).kind = 2 ∧ c.at_ = 0 ∧ (endpoint c.b).kind = 2 ∧ (endpoint c.b).ck = 0 ∧
    findCmd (engined { c with parked := true }) 0 0 9 = some { c with parked := true }) ∧
    (let c := cmdOf (firstWord (.xcopy 0 3 64)) 64 memEnd verDone
    let v := { ver1 .filling 16 1 with tn := 2 }
    let s := (engined c).onSlice (homeRef ⟨0, 2, 1⟩) fun k => { k with vers := k.vers ++ [v] }
    (endpoint c.b).ck = 2 ∧ findVer s (refOf 0 (endpoint c.b).c) = some v ∧ v.state = .filling ∧ v.proxy = false ∧ v.closed = false ∧ 8 ≤ v.size ∧ 8 < v.pend ∧
    tileHas s (refOf 0 (endpoint c.b).c) [v] ∧ findCmd s 0 0 c.id = some c) ∧
    -- XCOPY.exp of a source that has answered: INT8 elements of 64 bytes, and 64 MXFP4 elements past its end
    (let c := { cmdOf (firstWord (.xcopyExp 0 3 64)) 64 verEnd memEnd with at_ := 1 }
    let s := { (tiled [ver1 .sealed_ 0 1]) with engines := [(0, [c])] }
    nextStart s 0 = some c ∧ engUnits c ≠ 0 ∧ cmdFn c = 0 ∧ (endpoint c.a).kind = 2 ∧ c.at_ ≠ 0 ∧ c.w0.getLsbD 8 = true ∧
    findVer s (refOf c.asid (endpoint c.a).a) = some (ver1 .sealed_ 0 1) ∧ (ver1 .sealed_ 0 1).proxy = false ∧
    expFits 0 3 64 0 64 = false ∧ expFits (32 * 2^32) 3 256 0 32 = true) := by
  simp only [tileHas]; decide +kernel

/-- Core 4's matrix unit has the command. -/
def matrixed (c : Cmd) : State := (tiled [ver1 .sealed_ 0 1]).onCore 4 fun k => { k with mat := { k.mat with queue := [c] } }

theorem wit_MatrixCommandsRunAndEnd :
    [firstWord (.mcfg 0 3 0), firstWord (.mlds 0 3 0 0), firstWord (.mswap 0 3 0), firstWord (.mstr 0 3 0), firstWord (.mzero 0 3 31 0),
      firstWord (.mdrn 0 3 0 0 1 0)].map (fun w => cmdFn (cmdOf w 0 loftDesc noTok)) = [0, 1, 2, 3, 4, 5] ∧ wf (firstWord (.mdrn 0 3 0 0 1 0)) 12 1 = 1 ∧
    (let c := cmdOf (firstWord (.mlds 0 3 0 0)) 0 loftDesc noTok
    findCmd (matrixed c) 1 4 c.id = some c ∧ matStartBad (matrixed c) 4 c = none ∧ (matDesc c.a).rows = 64) ∧
    (let c := cmdOf (firstWord (.mstr 0 3 0)) 0 (num (0x100 + 2^64 * (4 * 2^4))) noTok
    findCmd (matrixed c) 1 4 c.id = some c ∧ matStartBad (matrixed c) 4 c = none ∧ (matDesc c.a).rows = 1) ∧
    (let c := cmdOf (firstWord (.mlds 0 3 0 0)) 0 (num (2^32 + 1 + 2^64 * (2 + 4 * 2^4))) noTok
    sealedHere (matrixed c) (refOf c.asid (matDesc c.a).a) (ver1 .sealed_ 0 1) ∧ matRow c ≤ (matDesc c.a).stride ∧
    (matDesc c.a).off + matSpan c ≤ (ver1 .sealed_ 0 1).size) ∧
    (let c := cmdOf (firstWord (.mdrn 0 3 0 0 0 0)) 0 (num (2^32 + 7 + 2^64 * (2 + 4 * 2^4))) noTok
    (matStartBad (matrixed c) 4 c).isSome = true) := by
  simp only [sealedHere]; decide +kernel

/-- Port 2 has the command. -/
def linked (c : Cmd) : State := { State.reset with ports := [(2, ⟨.up, 0, [c]⟩)], routes := [(5, 2)] }
/-- A remote descriptor: global memory of node 5, a version there (R348). -/
def remMem : Token := num (0x0500000000001000 + 2^64 * (5 * 2^2))
def remVer : Token := num (2^32 + 1 + 2^64 * (2 + 5 * 2^2))

theorem wit_LinkCommandsRunAndEnd :
    (let c := cmdOf (firstWord (.xput 0 3 64)) 64 verEnd remVer
    nextLink (linked c) 2 = some c ∧ linkWants c = some (2, v64 verEnd 0) ∧ cmdFn c = 0 ∧ (linkForm c).efq = false ∧
    (endpoint (linkLocal c)).ck = 0 ∧ c.rout = false ∧ (linkRem c).dk = 2 ∧ findCmd (linked c) 2 2 c.id = some c ∧
    ((linked c).portTo (linkRem c).node).isSome = true) ∧
    (let c := cmdOf (firstWord (.xput 0 3 64)) 64 memEnd remVer
    nextLink (linked c) 2 = some c ∧ c.w0.getLsbD 8 = false ∧ (endpoint c.a).kind < 2 ∧ linkFar (linked c) c = false) ∧
    (let c := cmdOf (firstWord (.xget 0 3 64)) 64 remVer verEnd
    nextLink (linked c) 2 = some c ∧ cmdFn c = 1 ∧ (endpoint c.b).kind = 2 ∧ (endpoint (linkLocal c)).ck = 0) ∧
    -- a source on a third device, reached and not
    (let c := cmdOf (firstWord (.xput 0 3 64)) 64 (num 0x0600000000001000) remVer
    let s := { linked c with routes := [(5, 2), (6, 2)] }
    nextLink s 2 = some c ∧ linkFar s c = true ∧ c.fetched = false ∧ findCmd s 2 2 c.id = some c ∧
    (s.portTo (nodeOf (endpoint c.a).a)).isSome = true ∧ linkFar (linked c) c = true ∧
    ((linked c).portTo (nodeOf (endpoint c.a).a)).isSome = false) := by decide +kernel

theorem wit_FlitsPortsAndJoints :
    (let g : Word := 0x7F0000000000103C
    isRemote (mapped.norm g) = false ∧ fieldsOk g = true ∧ g.toNat % 64 + 4 ≤ 64 ∧
    (match (xlate mapped g 0 true true false none).1 with
      | .ok (leaf, pa) => !leaf.host && !poisoned mapped pa && (poolVer mapped (fwd mapped pa)).isNone
      | .error _ => false) = true ∧
    (match (xlate readOnly g 0 true true false none).1 with | .ok _ => false | .error k => k == 8) = true) ∧
    mapped.failedIn.contains (5, 3) = false ∧ (tiled [ver1 .filling 16 1]).failedIn.contains (5, 3) = false ∧
    (ver1 .filling 16 1).closed = false ∧ fillCount [some 1] < (ver1 .filling 16 1).pend ∧
    findVer (tiled [ver1 .filling 16 1]) r1 = some (ver1 .filling 16 1) ∧ tileHas (tiled [ver1 .filling 16 1]) r1 [ver1 .filling 16 1] ∧
    (let p := { ver1 .filling 64 1 with proxy := true, node := 5 }
    findVer (tiled [p]) r1 = some p ∧ p.proxy = true ∧ p.node = 5 ∧ tileHas (tiled [p]) r1 [p]) ∧
    (let m : MemReq := ⟨.load src0, 0x0500000000001000, 0, true, some 4, .read 0 8 false⟩
    let s := { running 4 loading with tags := [(3, .mem m)] }
    (s.tags.find? fun x => x.1 == 3) = some (3, .mem m) ∧ s.current src0 = true ∧ majorOf (wordOf s src0) = 0x60 ∧
    wf (wordOf s src0) 12 3 ≠ 3 ∧ s.current { src0 with epoch := 1 } = false) ∧
    (let g := { ver1 .sealed_ 0 1 with tn := 3, ver := 2, size := 128 }
    let b := { ver1 .sealed_ 0 1 with fmt := 2 }
    let d := { ver1 .filling 64 1 with ver := 2, fmt := 2 }
    let s := (tiled [b, d]).onSlice (homeRef ⟨0, 3, 2⟩) fun k => { k with vers := k.vers ++ [g] }
    findVer s ⟨0, 3, 2⟩ = some g ∧ findVer s ⟨0, 1, 2 - 1⟩ = some b ∧ findVer s ⟨0, 1, 2⟩ = some d ∧ g.size = 2 * d.size ∧ b.size = d.size ∧
    d.size % 4 = 0 ∧ d.size ≤ d.pend) ∧
    (let f : Flit := .dec 5 r1
    let s := { State.reset with heldFlits := [f], ports := [(2, ⟨.up, 0, []⟩)], routes := [(5, 2)] }
    f ∈ s.heldFlits ∧ (s.portTo (flitNode f)).isSome = true) ∧ (State.reset.port 2).st = .down := by
  simp only [tileHas]; decide +kernel

/-! ## Hypotheses that are met: messages, the supervisor, the Larder and the dispatcher -/

def msg (dest cls : Nat) (asid : BitVec 16) : Msg := ⟨dest, cls, 9, 4, 1, 77, asid, false⟩
/-- ASID 0 has a save area at 0x8000000 (R396). -/
def areas (m : Mem) : Mem := poke m 0x80000 8 0x8000001
def withArea : State := { State.reset with mem := areas [] }

theorem wit_MessagesReachCoresAndHandlers :
    (State.reset.core 4).asid = (msg 4 2 0).asid ∧ switchedOut .reset 4 0 = false ∧ classLen (State.reset.core 4) 2 < 8 ∧
    8 ≤ classLen ((State.reset.onCore 4 fun k => { k with msgs := List.replicate 8 (msg 4 2 0) }).core 4) 2 ∧
    ¬((msg 4 2 1).trap = true ∨ ((State.reset.core 4).asid = (msg 4 2 1).asid ∧ switchedOut .reset 4 1 = false)) ∧
    saveArea .reset 1 = none ∧ saveArea { State.reset with mem := poke [] 0x80008 8 0x8000001 } 1 = some 0x8000000 ∧
    (aget State.reset.spill 1 []).length < 256 ∧
    -- a handler that starts, and one whose entry is not valid
    ([[poke (tables []) 0x4000010 8 0x1041], [tables []], [[]]].all fun l => l.all fun m =>
      let s := ({ State.reset with mem := m }).onCore 4 fun k => { k with
        msgs := [msg 4 2 0], hstrands := 1, htab := 0x7F00000000000000 }
      firstMsg (s.core 4) == some (msg 4 2 0) && ((List.range 16).find? fun t => takesMessage s 4 t) == some 0) = true ∧
    ([(poke (tables []) 0x4000010 8 0x1041, some true), (tables [], some false), ([], none)].all fun (m, want) =>
      let s := { State.reset with mem := m }
      ((readGlobal s 0x7F00000000000010 0 true (some 4) 8).1.map fun d => (BitVec.ofNat 64 (leNat d)).getLsbD 0) == want) = true ∧
    (msg 4 2 0).core < 2^13 ∧ (msg 4 2 0).strand < 2^4 ∧ (msg 4 2 0).cls < 2^4 ∧
    -- a trap message: collected, and held
    -- an HTAB of another device: its entry is asked for, and has come
    (let s := (linked (cmdOf 0 0 noTok noTok)).onCore 4 fun k => { k with htab := 0x0500000000000000, hstrands := 1, msgs := [msg 4 2 0] }
    let g := s.norm ((s.core 4).htab + 16)
    let came := s.onCore 4 fun k => { k with htabRead := some (htabKey (g, true), some (some 0x1041)) }
    firstMsg (s.core 4) = some (msg 4 2 0) ∧ ((List.range 16).find? fun t => takesMessage s 4 t) = some 0 ∧ isRemote g = true ∧
    addrOk s g = true ∧ (s.core 4).htabRead = none ∧ firstMsg (came.core 4) = some (msg 4 2 0) ∧
    ((List.range 16).find? fun t => takesMessage came 4 t) = some 0 ∧ statusMode (s.strand 4 0).status = false ∧ (0x1041 : Word).getLsbD 0 = true) ∧
    (State.reset.slices.all fun x => x.2.vers.all fun e => !e.hbm || e.grans == 0) = true ∧ State.reset.migs = [] ∧
    (let m : TrapMsg := ⟨255, 7, 0, 15, 3, 0, 0x1000, 1, 0x1000, 0, 1, 0⟩
    mergeDue m State.reset.due = none ∧ mergeHeld m (aget State.reset.collectors (3 * 16 + 15) []) = none ∧
    aget State.reset.collectors (3 * 16 + 15) [] = [] ∧ classLen (State.reset.core (3 * 2048 + 3)) 15 < 8 ∧ m.kind < 2^8 ∧ m.row < 2^8 ∧
    m.die < 2^8 ∧ m.count < 2^16) := by decide +kernel

def inv1 (act : Nat) : Tlbinv := ⟨1, 0, 0, true, 0, 0, act, 15, 7, ⟨0, 0, 0⟩⟩

theorem wit_SupervisorRequestsComplete :
    [0, 1, 2, 3].all (fun act =>
      let s := State.reset.onStrand 2052 15 fun d => { d with phase := .held 9 }
      coreDie 2052 == 1 && (s.strand 2052 15).phase == .held 9 && tlbinvAsid (inv1 act) (s.core 2052).asid &&
      tlbinvMeets (inv1 act) (bits (s.strand 2052 15).tval 0 48) 1 && (s.strand 2052 15).block.isNone) = true ∧ coreDie 4 ≠ 1 ∧
    (let s := { State.reset with tlbinvs := [inv1 0] }
    (s.tlbinvs.find? fun x => x.id == 1) = some (inv1 0) ∧ (inv1 0).acked ||| .ofNat 4 (2^3) = (inv1 0).dies ∧
    (inv1 0).acked ||| .ofNat 4 (2^0) ≠ (inv1 0).dies ∧ (inv1 0).done.ver = 0) ∧
    (match walk .reset 0 0 0 with | .error k => k == 7 | .ok _ => false) = true ∧
    (match walk mapped 0 0 0x1000 with | .error _ => false | .ok leaf => leaf == devLeaf && leaf.big && pageBase leaf 0x1000 == 0) = true ∧
    (0x8000000 % 2^25 = 0 ∧ 0x8200000 % 2^25 ≠ 0) ∧ (State.reset.migs.filter fun x => x.die == 0).length = 0 ∧
    (let m : Migration := ⟨0, 0, 0, false, 0x4000000, 0x8000000, 2^21 - 256, ⟨0, 0, 0⟩, 0⟩
    m.old % 128 = 0 ∧ m.new % 128 = 0 ∧ m.cursor % 128 = 0 ∧ m.cursor + 128 < 2^21 ∧ m.old + 2^21 ≤ m.new ∧
    (∀ e ∈ State.reset.undo, e.1 ≠ (m.old + m.cursor) / 128)) ∧
    -- the last line of a 32 MiB page, whose leaf is still there, or no longer
    (let m : Migration := ⟨0, 0, 0, true, 0x4000000, 0x8000000, 2^25 - 128, ⟨0, 0, 0⟩, 0⟩
    let s := { mapped with migs := [m] }
    m.old + 2^25 ≤ m.new ∧ m.new < 2^51 ∧ m.cursor + 128 = 2^25 ∧
    (∀ pa ∈ walkReads s 0 0 0, (pa < m.old ∨ m.old + 2^25 ≤ pa) ∧ pa / 128 ≠ (m.new + m.cursor) / 128) ∧
    leafAddr s 0 0 0 = some 0x200000 ∧ poisoned s 0x200000 = false ∧ (numAt 64 s.mem 0x200000 : Word).getLsbD 0 = true ∧
    leafAddr { State.reset with migs := [m] } 0 0 0 = none) := by decide +kernel

/-- Entry 3 of die 1 in a state code, of generation 5. -/
def stream (st : Nat) (auto : Bool) : State :=
  State.reset.onLentry 4099 fun e => { e with state := st, gen := 5, auto := auto, ptok := 8, cver := 4, itn := 9 }
def handle53 : Word := 0x54003

theorem wit_LarderEntriesAndBuilds :
    handleEntry handle53 = 4099 ∧ [1, 2, 3, 4, 5, 6, 7].all (fun st =>
      handleOk (stream st true) 0 handle53 && ((stream st true).lentry 4099).state == st) = true ∧
    handleOk .reset 0 handle53 = false ∧ (State.reset.strand 4 0).report = none ∧ bits (4 : Word) 0 32 ≤ 4 ∧ 4 < bits (5 : Word) 0 32 ∧
    findVer .reset ⟨0, 0, 5⟩ = none ∧
    (let v := { ver1 .poisoned 0 1 with tn := 0, ver := 5 }
    findVer (State.reset.onSlice (homeRef ⟨0, 0, 5⟩) fun k => { k with vers := [v] }) ⟨0, 0, 5⟩ = some v) ∧
    ((stream 2 true).lentry 4099).dtok < 256 ∧
    -- SNEW: off, bad, and on with a free entry
    State.reset.ldcfg.getLsbD 0 = false ∧ ({ State.reset with ldcfg := 1 }).ldcfg.getLsbD 0 = true ∧ snewOk 0 0 = false ∧
    snewOk (2^160) 0 = true ∧ (State.reset.lentry 0).state = 0 ∧ (State.reset.lentry 0).rsv = none ∧
    (let full := { State.reset with ldcfg := 1, larder := (List.range 4096).map fun i => (i, { LEntry.reset with state := 1 }) }
    (full.larder.all fun x => x.2.state != 0) = true ∧ full.larder.length = 4096) ∧
    -- builds
    (let b : Build := ⟨0, 256, 7, none, none, 0, [], [], 0, 0⟩
    let s := { (stream 3 true) with builds := [b] }
    s.builds = [b] ∧ (walkPlans (walkOrder s 0) 256 0).length = 1 ∧
    (match createVer s ⟨0, 7, 1⟩ ⟨96, 96, 0, 0, false, true, none, none⟩ with | .ok _ => true | .error k => k == 15) = true) ∧
    (let b : Build := ⟨0, 256, 1, none, some 0, 1, [], List.replicate 32 1, 1, 1⟩
    let v := { ver1 .filling 96 1 with size := 96 }
    b.bytes.length = 32 * 1 ∧ findVer (tiled [v]) ⟨b.asid, b.btn, b.ver⟩ = some v ∧ tileHas (tiled [v]) ⟨b.asid, b.btn, b.ver⟩ [v] ∧
    v.guard = none ∧ v.fin = false ∧ v.closed = false ∧ v.refs ≠ 0 ∧ v.waiters = [] ∧ v.pend = v.size ∧ 64 + 32 * 1 ≤ v.size) := by
  simp only [tileHas]; decide +kernel

/-- A launch record of one level of 64 tasks of CLUSTER domain on die 0, priority 3, EV 3 (R359). -/
def record : List Byte := leBytes (0x1000 + 3 * 2^64 + 3 * 2^72 + 2^80 + 2^112 + (63 + 2 * 2^16) * 2^640) 256
/-- The same with a NOTBEFORE of 5, and with a first prerequisite. -/
def later : List Byte := leBytes (leNat record + 5 * 2^192) 256
def needs : List Byte := leBytes (leNat record + (2^32 + 1) * 2^384) 256
def launch (raw : List Byte) (lease : Option (List Nat × Option Nat)) : Launch :=
  ⟨0, 1, raw, [], true, true, 0, some 0, 3, 0, none, (0x8000100, 0xA000000), lease, false, 0, [], [], 0⟩
def launched (ls : List Launch) : State := { State.reset with launches := ls }
/-- The launch tile's version 1 of ASID 0. -/
def launchRef : Ref := ⟨0, 0xFFFFFFFF, 1⟩
def recordVer (st : VState) (raw : List Byte) (size : Nat) : Ver :=
  { newVer launchRef ⟨size, 0, 1, 0, false, false, none, none⟩ with state := st, bytes := memPutAll [] 0 (raw.map some) }
def withRecord (v : Ver) : State :=
  State.reset.onSlice (homeRef launchRef) fun k => { k with vers := [v], tiles := [⟨0, 0xFFFFFFFF, 1, false, []⟩] }

theorem wit_LaunchesAreAcceptedAndRanked : findLaunch (launched [launch needs none]) 0 1 = some (launch needs none) ∧
    (launch record none).notBefore = true ∧ ((List.range 4).all fun q => bits (recPre record q) 0 32 == 0) = true ∧
    bits (recPre needs 0) 0 32 ≠ 0 ∧ (launch record none).since = 0 ∧ (launch record none).elig = some 0 ∧ (launch record none).lease = none ∧
    min 7 (recPrio record + ((launched []).now - 0) / 2000000) = (launch record none).cls ∧
    min 7 (recPrio record + (({ launched [] with timebase := 2000000 }).now - 0) / 2000000) ≠ (launch record none).cls ∧
    -- LAUNCH_ACCEPT
    nextlOf .reset 0 = 1 ∧ findVer .reset launchRef = none ∧ hwmOf .reset 0 launchRef.tn < launchRef.ver.toNat ∧
    (let s := State.reset.onSlice (homeRef launchRef) fun k => { k with tiles := [⟨0, 0xFFFFFFFF, 1, false, []⟩] }
    findVer s launchRef = none ∧ launchRef.ver.toNat ≤ hwmOf s 0 launchRef.tn) ∧
    findVer (withRecord (recordVer .poisoned record 256)) launchRef = some (recordVer .poisoned record 256) ∧
    (recordVer .sealed_ record 255).size ≠ 256 ∧ memBytes (recordVer .sealed_ record 256).bytes 0 256 = record ∧
    findVer (withRecord (recordVer .sealed_ record 256)) launchRef = some (recordVer .sealed_ record 256) ∧
    recordBad 0 record = false ∧ hierarchyBad record = false ∧ recordBad 1 record = true ∧
    hierarchyBad (leBytes (leNat record + 2^640) 256) = true ∧ recordBad 0 (leBytes (leNat record + 2^640) 256) = false ∧
    recNotBefore later = 5 ∧ State.reset.now < 5 ∧ findLaunch .reset 0 1 = none := by decide +kernel

theorem wit_LeasesStartExpireAndRetire : recLevels record ≠ 0 ∧ choosePlace (launched [launch record none]) (launch record none) = some [1] ∧
    ranked (launched [launch record none]) = [launch record none] ∧
    findLaunch (launched [launch record none]) 0 1 = some (launch record none) ∧ (launch record none).saved = none ∧
    (let nowhere := launch (leBytes (leNat record - 2^112) 256) none
    choosePlace (launched [nowhere]) nowhere = none ∧ ranked (launched [nowhere]) = [nowhere]) ∧
    (let l := launch record (some ([1], some 9))
    let other := { launch record none with ver := 2 }
    findLaunch (launched [l]) 0 1 = some l ∧ l.lease = some ([1], some 9) ∧ l.preempting = false ∧
    ((launched [l]).launches.any fun x => waits x) = false ∧ waits other = true ∧ takeFrame (launched [l, other]) l = none ∧
    (let s := { launched [l, other] with mem := poke (poke (areas []) 0x8000100 8 0xA000001) 0x8000108 8 4 }
    (takeFrame s l).isSome = true)) := by decide +kernel

theorem wit_PreemptionSavesContexts :
    (let s := State.reset.onStrand 4 15 fun d => { d with block := some (exiting .br), preempt := some 9, phase := .running }
    15 < 16 ∧ preempted (s.strand 4 15) = true ∧ (exiting .br).irrev = false ∧ (s.strand 4 15).block = some (exiting .br)) ∧
    preempted ((ending 4 .br).strand 4 0) = false ∧
    (let l := { launch record (some ([1], some 9)) with saved := some 0, preempting := true }
    let s := { launched [l] with mem := poke (poke (areas []) 0x8000100 8 0xA000001) 0x8000108 8 4 }
    launchOn s 4 = some l ∧ findLaunch s l.asid l.ver = some l ∧ l.lease = some ([1], some 9) ∧ l.saved = some 0 ∧ s.migs = [] ∧
    (s.core 4).msgs = [] ∧ (savedOf s l.asid 0 (placeOf [1] 4 0) 4).cmds.length ≤ 1024 ∧ (0 : Nat) < 2^16 ∧ placeOf [1] 4 0 < 8192 ∧ l.savedCores + 1 < 4 * [1].length ∧ 4 * [1].length ≤ ({ l with savedCores := 3 }).savedCores + 1) := by
  decide +kernel

/-! ## Hypotheses that are met: the host, time, firing and steps -/

/-- Device memory that the host's window maps, and host lines. -/
theorem wit_HostAccessesAreServed :
    (let g := windowAddr mapped 0x1000
    g = 0x7F00000000001000 ∧ fieldsOk g = true ∧ isRemote (mapped.norm g) = false ∧ tlbFind mapped (mapped.norm g) mapped.dev.winasid = none ∧
    (match walk mapped (dieOf (mapped.norm g)) mapped.dev.winasid (vaOf (mapped.norm g)) with | .ok l => l == devLeaf | .error _ => false) = true ∧
    g.toNat % 128 + 128 ≤ 128 ∧ leafBad (mapped.norm g) devLeaf false true false none = false ∧
    poisoned mapped (mappedAt mapped g devLeaf) = false ∧
    poisoned { mapped with poison := [0x4001000 / 128] } (mappedAt mapped g devLeaf) = true ∧
    leafBad g { devLeaf with w := false } false true false none = true ∧
    fieldsOk (windowAddr { State.reset with dev := { Dev.reset with winbase := 0x7F01000000000000 } } 0) = false) ∧
    inHbm 0 = true ∧ inHbm (3 * 2^38 + 144 * 2^30 - 1) = true ∧ inHbm (144 * 2^30) = false ∧ 0x1000 % 128 + 128 ≤ 128 ∧
    (let s := { State.reset with agent := [(3, ⟨3, List.replicate 64 5⟩)] }
    (s.agent.find? fun x => x.1 == 3) = some (3, ⟨3, List.replicate 64 5⟩)) ∧
    isSup (bits (0x0000000700000000 : Word) 32 13) = false ∧ isSup (bits (0x0000080300000000 : Word) 32 13) = true ∧
    -- the control BAR
    [0, 8, 0x10, 0x18, 0x20, 0x100, 0x138, 0x1000, 0x1018, 0x100000, 0x1FFFF8, 0x200000, 0x3FFFF8].all (fun o => o % 8 == 0) = true ∧
    ({ Dev.reset with stage := 4 }).stage = 4 ∧ Dev.reset.fail = false ∧ Dev.reset.stage ≠ 4 ∧ bits (5 : Word) 0 7 ≠ 0x7F ∧
    State.reset.sysnum.toNat / 16 ≠ (0x100 - 0x100) / 8 ∧ bits (1 : Word) 0 16 ≠ 0 ∧
    -- publications
    Dev.reset.go = false ∧ pubBad 0x7E (2^20) = true ∧ pubBad 0x7E (64 * 2^96 + 0x7F * 2^184) = false ∧
    pubBad 0x7E (64 * 2^96 + 0x7E * 2^184) = false ∧ pubBad 0x7E (64 * 2^96 + 5 * 2^184) = true ∧
    (match createVer .reset r1 { size := 64, pend := 64, refs := 1, fmt := 0, pin := false, hbm := false, proxy := none, fork := none } with
     | .ok _ => true | .error _ => false) = true ∧
    (match createVer (tiled []) ⟨0, 1, 2⟩ { size := 64, pend := 64, refs := 1, fmt := 0, pin := false, hbm := false, proxy := none, fork := none } with
     | .ok _ => false | .error k => k == 0xB) = true ∧
    hostPieces 0x7F00000000001000 0 = [] ∧
    -- a version of 64 bytes and its source
    (let s := { (tiled [ver1 .filling 64 1]) with mem := tables [] }
    let g : Word := 0x7F00000000001000
    fieldsOk g = true ∧ isRemote (s.norm g) = false ∧ tlbFind s (s.norm g) 0 = none ∧
    (match walk s (dieOf (s.norm g)) 0 (vaOf (s.norm g)) with | .ok l => l == devLeaf | .error _ => false) = true ∧
    poolVer s (fwd s (mappedAt s g devLeaf)) = none ∧ findVer s r1 = some (ver1 .filling 64 1) ∧ (ver1 .filling 64 1).size = 64 ∧
    (ver1 .filling 64 1).guard = none ∧ (ver1 .filling 64 1).fin = false ∧ (ver1 .filling 64 1).waiters = []) := by decide +kernel

/-- The fuses are free (log 12): an image that is too short fails at stage 3 whatever they are. -/
theorem wit_ResetBootsTheModule : verifyImage (memBytes State.reset.hostMem 0 16) = some 2 ∧
    (let s := { State.reset with dev := { Dev.reset with stage := 4 } }
    s.dev.stage = 4 ∧ s.dev.fail = false ∧ 4 ≤ s.dev.stage) ∧ State.reset.dev.stage < 4 ∧ ¬(State.reset.dev.stage = 4) ∧ 11 < 12 := by
  decide +kernel

theorem wit_ClocksSensorsAndErrors : State.reset.ptmDone = false ∧ ({ State.reset with ptmDone := true }).ptmDone = true ∧
    ([60, 95, 70] : List Int)[1]? = some 95 ∧ (95 : Int) ∈ ([60, 95, 70] : List Int) ∧ (∀ x ∈ ([60, 95, 70] : List Int), x ≤ 95) ∧
    findVer (tiled [ver1 .filling 16 1]) r1 = some (ver1 .filling 16 1) ∧ tileHas (tiled [ver1 .filling 16 1]) r1 [ver1 .filling 16 1] ∧
    (ver1 .filling 16 1).grans ≠ 0 ∧ (ver1 .sealed_ 0 1).refs ≠ 0 ∧ (4 : Nat) ≤ 4 := by
  simp only [tileHas]; decide +kernel

/-- Targets that are full: slot 0's own operand A, and write slot 0; and free ones (R44). -/
theorem wit_SecondArrivalsFault : (let b := { blk (memSlot (num 6) (num 7)) with wr := some (num 1) :: List.replicate 15 none }
    targetFull b 0x40 ∧ targetFull b 0x20 ∧ targetFree b 0x41 = true ∧ targetFree b 0x2F = true) ∧
    Fires (mem1 4 (num 6) (num 7)) 0 (blk (memSlot (num 6) (num 7))) (memSlot (num 6) (num 7)) ∧ (0x41 : BitVec 8) ≠ 0 :=
  ⟨⟨Or.inr ⟨by decide, memSlot (num 6) (num 7), num 6, rfl, rfl⟩, Or.inl ⟨by decide, by decide, num 1, rfl⟩, rfl, rfl⟩, mem1_fires 4 _ _, by decide⟩

theorem wit_EncodingRoundTrip_FiringChangesNoArchitecturalState : isCoded (.xputEfq 3 31 1 2 1 0xFFFFFFF) = true ∧
    (Instr.xputEfq 3 31 1 2 1 0xFFFFFFF).wf = true ∧ isCoded .blockFetch = false ∧
    (mem1 4 (num 6) (num 7)).curBlock = some (blk (memSlot (num 6) (num 7))) ∧ (blk (memSlot (num 6) (num 7))).atomic = none ∧
    (decode 0x213085C3 0).isSome = true := by decide +kernel

/-- Turns at the head of the agenda: an instruction, a packet that is due, a step whose condition holds, and units that the module
does not have. -/
theorem wit_StepRunsTheDecodedInstruction :
    (let b := blk (slot 0x20304100 (some (num 6)) (some (num 7)) none)
    let s := running 4 b
    s.halted = false ∧ throttled s 4 = false ∧ (s.strand 4 0).yielding = none ∧ (s.strand 4 0).block = some b ∧
    decode 0x20304100 (argOf b 0) = some (.add 0 3 0x41 0) ∧ readyAt b 0 = true ∧ s.ptmOffset = 0 ∧ wouldFire s 4 0 b 0 = true ∧
    portPick s 4 (memPort b 0) = some (0, 0) ∧ portPick s 4 true = none ∧ owed s = some (4, 0, 0) ∧ mustFollow s .auto = true ∧
    portPick (s.note fun o => { o with issues := [(4, false)] }) 4 false = none) ∧
    owed .reset = none ∧ timed .reset = none ∧ (timed { State.reset with clock := 10000 }).isSome = true ∧
    (let s := State.reset.emit (.tholdAtHome (req1 1))
    unitsOk (.tholdAtHome (req1 1)) = true ∧ inOrder s (.tholdAtHome (req1 1)) = true ∧ isDue s (.tholdAtHome (req1 1)) = true ∧ arrivable s (.tholdAtHome (req1 1)) = true ∧
    isDue .reset (.tholdAtHome (req1 1)) = false) ∧
    unitsOk (.blockFetch 8191 15) = true ∧ unitsOk (.blockFetch 8192 0) = false ∧ inOrder atBoundary (.blockFetch 4 0) = true ∧
    (let m : MemReq := ⟨.load src0, 0x1000, 0, true, some 4, .read 0 8 false⟩
    let s := { State.reset with order := { SameCycle.empty 0 with home := 9 } }
    unitsOk (.homeAccess m 0 devLeaf) = true ∧ inOrder s (.homeAccess m 0 devLeaf) = false) ∧ condition atBoundary (.blockFetch 4 0) = true ∧
    condition .reset (.blockFetch 4 0) = false ∧ ({ State.reset with agenda := [⟨3, 2, .auto⟩] }).agenda.headD ⟨1, 1, .auto⟩ = ⟨3, 2, .auto⟩ ∧
    -- commands that may perform a part, and a build that has started
    (let c := { cmdOf (firstWord (.xcopy 0 3 64)) 64 memEnd memEnd with run := true }
    mayProgress (engined c) 0 0 9 0 = true ∧ partInOrder (engined c) 2 2 = true) ∧
    (let c := { cmdOf (firstWord (.mlds 0 3 0 0)) 0 loftDesc noTok with run := true }
    mayProgress (matrixed c) 1 4 9 0 = true) ∧
    (let c := { cmdOf (firstWord (.xput 0 3 64)) 64 memEnd remVer with run := true }
    mayProgress (linked c) 2 2 9 0 = true) ∧
    ([⟨0, 256, 1, none, some 0, 1, [], [], 0, 0⟩] : List Build).any (fun b => b.start.isSome) = true := by
  decide +kernel

/-- A packet that the step in progress brings, for each of the steps that are no instruction. -/
theorem wit_OtherStepsComplete : (bringing (.blockFetch 4 0) .reset).packet = .blockFetch 4 0 ∧
    (bringing .stepBuild .reset).packet = .stepBuild ∧ (bringing (.asidTeardown 7) .reset).packet = .asidTeardown 7 ∧
    isCoded .asidTeardown = false := ⟨rfl, rfl, rfl, rfl⟩

/-- Loft endpoints of core 4, at 0x100 and at 0x240; the former with a completion version (R322). -/
def loftSrc : Token := num (0x100 + 2^64 * (1 + 4 * 4))
def loftDst : Token := num (0x240 + 2^64 * (1 + 4 * 4 + 2 * 2^44) + 2^192 * (2^33 + 1))
def copying : Cmd := cmdOf (firstWord (.xcopy 0 3 64)) 64 loftSrc loftDst

theorem wit_CommandPartsMoveBytes :
    -- an XCOPY between Lofts, from and to versions; an XGATH and an XSCAT of four elements of 16 bytes, an XFILL
    (findCmd (engined copying) 0 0 9 = some copying ∧ (engForm copying).fn = 0 ∧ 2 < engParts copying ∧ engPiece copying 0 = (0, 0, 64) ∧
      engMayWrite copying 0 = true ∧ (copying.got.any fun y => y.1 == 0) = false) ∧
    [(firstWord (.xgath 0 3 4 4), 1), (firstWord (.xscat 0 3 4 4), 2), (firstWord (.xfill 0 3 64), 3)].all (fun x =>
      let c := { cmdOf x.1 4 loftSrc loftDst with rbuf := [0, 0, 0, 0, 2, 0, 0, 0, 1, 0, 0, 0, 3, 0, 0, 0] }
      (engForm c).fn == x.2 && 0 < engParts c && (List.range (engParts c)).any fun n => 0 < (engPiece c n).2.2) = true ∧
    (let c := { copying with got := [(0, List.replicate 64 5)] }
    c.got.find? (fun y => y.1 == 0) = some (0, List.replicate 64 5) ∧ (List.replicate 64 (5 : Byte)).length = (engPiece c 0).2.2 ∧ 0 ∉ c.wrote) ∧
    (let c := cmdOf (firstWord (.xcopyExp 0 3 16)) 16 verEnd loftDst
    (engForm c).exp = true ∧ (engPiece c 0).2.2 ≠ 0 ∧ bits (endpoint c.a).lane2 5 2 ≠ 3) ∧
    -- rows of the matrix unit
    (let c := cmdOf (firstWord (.mlds 0 3 0 0)) 0 loftDesc noTok
    findCmd (matrixed c) 1 4 c.id = some c ∧ cmdFn c ≠ 5 ∧ (matDesc c.a).dk = 0 ∧ c.user = true ∧ c.base ≤ c.at_ ∧ c.at_ + 16 ≤ c.limit) ∧
    (let c := cmdOf (firstWord (.mdrn 0 3 0 0 0 0)) 0 loftDesc noTok
    cmdFn c = 5 ∧ (matDesc c.a).first + 0 / matPartsPerRow c < 128 ∧ (matDesc c.a).dk = 0) ∧
    (matDesc tileDesc).dk = 2 ∧
    -- Kiln blocks: of numbers, of zeros, and with an infinity
    ([exInt 3, exInt 0].length = [exInt 1, exInt 0].length ∧ [exInt 0, exInt 0].all exIsZero = true ∧ [exInt 3, exInt 0].all exIsZero = false) ∧
    -- link commands: XGET, XPUT, its fold and its Kiln forms, and the guard word after the last unit
    (let c := { cmdOf (firstWord (.xget 0 3 64)) 64 remVer loftDst with buf := List.replicate 64 7 }
    (linkForm c).get = true ∧ (c.buf.drop (getPiece c 0).1).take (getPiece c 0).2 ≠ [] ∧ findCmd (linked c) 2 2 9 = some c) ∧
    (let c := cmdOf (firstWord (.xput 0 3 64)) 64 loftSrc remVer
    (linkForm c).get = false ∧ (linkForm c).efq = false ∧ c.parts < linkUnits c ∧ (endpoint c.a).kind ≠ 0) ∧
    (let c := cmdOf (firstWord (.xputEfq 0 3 0 1 1 64)) 64 verEnd (num (2^32 + 1 + 2^64 * (2 + 5 * 2^2) + 2^128 * (2^32 + 9)))
    (linkForm c).efq = true ∧ c.parts < linkUnits c ∧ linkUnits { c with parts := 2 } ≤ 2 ∧ (endpoint c.a).kind = 2) := by
  decide +kernel

/-- The bytes of a Loft endpoint are open to the command, and are what the Loft holds; those of a version too. -/
theorem wit_EndpointsHoldAndTake : EndHolds (engined copying) copying ⟨1, 0x100, 4, 0, 0, 0, 0⟩ 0 64 (List.replicate 64 0) ∧
    EndTakes (engined copying) copying ⟨1, 0x240, 4, 0, 2, 0, 0x200000001⟩ 0 (List.replicate 64 5) ∧
    EndHolds (tiled [ver1 .sealed_ 0 1]) copying ⟨2, 0x100000001, 0, 0, 0, 0, 0⟩ 0 64 (List.replicate 64 0) ∧
    EndTakes (tiled [ver1 .filling 64 1]) copying ⟨2, 0x100000001, 0, 0, 0, 0, 0⟩ 0 (List.replicate 16 5) ∧
    endpoint loftSrc = ⟨1, 0x100, 4, 0, 0, 0, 0⟩ ∧ endpoint loftDst = ⟨1, 0x240, 4, 0, 2, 0, 0x200000001⟩ ∧
    endpoint verEnd = ⟨2, 0x100000001, 0, 0, 0, 0, 0⟩ :=
  ⟨⟨⟨by decide, by decide +kernel⟩, by decide +kernel, by decide +kernel⟩, ⟨by decide, by decide +kernel⟩,
    ⟨ver1 .sealed_ 0 1, by decide +kernel, rfl, by decide, by decide +kernel⟩,
    ⟨ver1 .filling 64 1, by decide +kernel, by unfold tileHas; decide +kernel, rfl, rfl, rfl, by decide, by decide⟩,
    by decide +kernel, by decide +kernel, by decide +kernel⟩

/-- An application of a grant: the entry is as the walk saw it, or has changed (R284). -/
theorem wit_GrantsApply : (let e := (stream 3 true).lentry 4099
    let b : Build := ⟨0, 256, 1, none, some 0, 1, [⟨4099, e, 4⟩], [], 0, 0⟩
    let s := { (stream 3 true) with builds := [b] }
    s.builds = [b] ∧ b.plans = [⟨4099, e, 4⟩] ∧ (s.lentry 4099).state = e.state ∧ (s.lentry 4099).gen = e.gen ∧ e.state = 3 ∧ 4099 < 2^14 ∧
    ((stream 2 true).lentry 4099).state ≠ e.state ∧ ((stream 2 true).lentry 4099).state = 2) := by decide +kernel

theorem wit_StepsKeepMemoryCanonical : memoriesWf .reset = true ∧ memoriesWf atBoundary = true ∧
    (match step State.reset with | .next t => t.cycle == 1 | _ => false) = true := by decide +kernel

/-! ## Single steps: results worked out by hand from the rules -/

/-- The token that a form sends to operand A of slot 1. -/
def result (i : Instr) (x y z : Token) : Option Token :=
  match exec i (running 4 (blk (slot 0 (some x) (some y) (some z)))) with
  | .next s => (s.curBlock.bind fun b => b.slots[1]?).bind (·.a)
  | _ => none
/-- Forms with their operands and the payload that comes, none of it null. -/
def results (l : List (Instr × Nat × Nat × Nat)) : Bool :=
  l.all fun (i, x, y, r) => result i (num x) (num y) (num 0xFFFF) == some (num r)

/-- R118, R119: wraps, signs, the corners of a division. -/
theorem test_integer_results : results [
  (.add 0 0 0 0x41, 2^64 - 1, 2, 1), (.add 0 5 0 0x41, 0x01FF, 0x0102, 0x0201), (.sub 0 1 0 0x41, 0, 1, 0xFFFFFFFF),
  (.mul 0 4 0 0x41, 0x8000FFFF, 0x00020003, 0x0000FFFD), (.mulh 0 0 0 0x41, 2^64 - 1, 2^64 - 1, 0),
  (.mulhu 0 0 0 0x41, 2^64 - 1, 2^64 - 1, 2^64 - 2), (.mulhsu 0 0 0 0x41, 2^64 - 1, 2^64 - 1, 2^64 - 1),
  (.div 0 1 0 0x41, 0x80000000, 0xFFFFFFFF, 0x80000000), (.rem 0 1 0 0x41, 0x80000000, 0xFFFFFFFF, 0),
  (.div 0 1 0 0x41, 0xFFFFFFF9, 2, 0xFFFFFFFD), (.rem 0 1 0 0x41, 0xFFFFFFF9, 2, 0xFFFFFFFF), (.divu 0 1 0 0x41, 7, 0, 0xFFFFFFFF),
  (.remu 0 1 0 0x41, 7, 0, 7), (.andn 0 0 0 0x41, 6, 3, 4), (.orn 0 1 0 0x41, 6, 0xFFFFFFFC, 7), (.shl 0 0 0 0x41, 3, 65, 6),
  (.sra 0 1 0 0x41, 0x80000000, 31, 0xFFFFFFFF), (.rol 0 1 0 0x41, 0x80000001, 1, 3), (.clz 0 1 0 0x41, 1, 0, 31),
  (.ctz 0 1 0 0x41, 0, 0, 32), (.popc 0 0 0 0x41, 0xF0F, 0, 8), (.brev 0 1 0 0x41, 1, 0, 0x80000000),
  (.imin 0 1 0 0x41, 1, 0xFFFFFFFF, 0xFFFFFFFF), (.minu 0 1 0 0x41, 1, 0xFFFFFFFF, 1),
  (.adds 0 1 0 0x41, 0x7FFFFFFF, 1, 0x7FFFFFFF), (.subs 0 1 0 0x41, 0x80000000, 1, 0x80000000), (.addsu 0 1 0 0x41, 0xFFFFFFFF, 1, 0xFFFFFFFF),
  (.subsu 0 1 0 0x41, 0, 1, 0)] = true := by decide +kernel

/-- R114, R120-R124: immediates, tests, moves and constants. -/
theorem test_immediates_tests_and_moves : results [
  (.addi 0 1 (-1) 0x41, 0, 0, 0xFFFFFFFF), (.andi 0 0 (-2) 0x41, 7, 0, 6), (.muli 0 1 (-3) 0x41, 5, 0, 0xFFFFFFF1),
  (.shli 0 1 31 0x41, 3, 0, 0x80000000), (.srai 0 1 4 0x41, 0x80000000, 0, 0xF8000000), (.sext 0 1 4 0x41, 0x18, 0, 0xFFFFFFF8),
  (.zext 0 1 4 0x41, 0x18, 0, 8), (.genc 0 1 (-1) 0x41, 0, 0, 0xFFFFFFFF), (.genu 0 0 0xABC 0x41, 0x12, 0, 0x12ABC),
  (.tlt 0 1 0 0x41, 0xFFFFFFFF, 0, 1), (.tltu 0 1 0 0x41, 0xFFFFFFFF, 0, 0), (.teq 0 4 0 0x41, 0x00050006, 0x00050007, 0xFFFFFFFE),
  (.tgti 0 1 (-2) 0x41, 0xFFFFFFFF, 0, 1), (.mov 0 0 0x41, 0x55, 0, 0x55), (.sel 3 0 0 0x41, 5, 6, 5), (.sel 2 0 0 0x41, 5, 6, 6),
  (.vext 0 5 1 0x41, 0x0908, 0, 9), (.link 0 1 0x41, 0, 0, 0x1040)] = true := by decide +kernel

/-- R39-R41: a null lane of an operand, a lane that the mask leaves out, and NUL give null lanes. -/
theorem test_nulls : result (.add 0 5 0 0x41) ⟨5, 2⟩ (num 0x0101) noTok = some ⟨6 ||| 0, 2⟩ ∧
    result (.add 1 3 0 0x41) (num 5) (num 6) (num 1) = some ⟨11, 0xFFFFFFFFFFFFFFF0⟩ ∧
    result (.nul 0 1 0x41) noTok noTok noTok = some ⟨0, 0xF⟩ := by decide +kernel

/-- R125-R127: lanes that move, pack and fold. -/
theorem test_lane_forms : results [
  (.vredadd 0 2 0 0x41, 1 + 2 * 2^64, 0, 3), (.maskpop 0 2 0 0x41, 0b101, 0, 2), (.vzip 0 2 0 0x41, 1 + 2 * 2^64, 7, 1 + 7 * 2^64 + 2 * 2^128),
  (.vunzip 0 2 0 0x41, 1 + 2 * 2^64 + 3 * 2^128, 0, 1 + 3 * 2^64), (.vins 0 2 1 0 0x41, 1, 9, 1 + 9 * 2^64),
  (.vbcast 0 2 0 0x41, 0, 0, 0), (.vslide 0 2 1 0x41, 5, 0, 5 * 2^64), (.vscan 0 2 0 0x41, 2^448, 0, 2^448)] = true ∧
  result (.vcmpr 0 2 0 0x41) (num (1 + 2 * 2^64)) (num 2) noTok = some ⟨2, BitVec.allOnes 64 <<< 8⟩ := by decide +kernel

/-- R153-R157, R160, in FP32 and BF16; 1 ÷ 3 and √2 are the nearest values, 0x3EAAAAAB and 0x3FB504F3. -/
theorem test_float_results : results [
  (.fadd 0 0 1 0 0x41, 0x3F800000, 0x40000000, 0x40400000), (.fsub 0 0 1 0 0x41, 0x3F800000, 0x3F800000, 0),
  (.fmul 0 0 1 0 0x41, 0xC0000000, 0x40400000, 0xC0C00000), (.fdiv 0 0 1 0 0x41, 0x3F800000, 0x40400000, 0x3EAAAAAB),
  (.fsqrt 0 0 1 0 0x41, 0x40000000, 0, 0x3FB504F3), (.frcp 0 0 1 0 0x41, 0x80000000, 0, 0xFF800000), (.frsq 0 0 1 0 0x41, 0x40800000, 0, 0x3F000000),
  (.fexp2 0 0 1 0 0x41, 0x40400000, 0, 0x41000000), (.flog2 0 0 1 0 0x41, 0x41000000, 0, 0x40400000), (.fneg 0 0 1 0 0x41, 0, 0, 0x80000000),
  (.fabs 0 0 1 0 0x41, 0xBF800000, 0, 0x3F800000), (.fclass 0 0 1 0 0x41, 0x80000000, 0, 8), (.fclass 0 0 1 0 0x41, 0x00000001, 0, 32),
  (.fmin 0 0 1 0 0x41, 0, 0x80000000, 0x80000000), (.fscl 0 0 1 0 0x41, 0x3F800000, 3, 0x41000000),
  (.flt 0 0 1 0 0x41, 0x80000000, 0, 0), (.fle 0 0 1 0 0x41, 0x80000000, 0, 1), (.fun 0 0 1 0 0x41, 0x7FC00000, 0, 1),
  (.fmul 1 0 4 0 0x41, 0x00003FC0, 0x00003FC0, 0x00004010)] = true ∧
  result (.ffma 0 1 0 0x41) (num 0x40000000) (num 0x40400000) (num 0x3F800000) = some (num 0x40E00000) := by decide +kernel

/-- R141, R163-R168: 2.5 and 3.5 to integers, saturation, and E4M3's largest, 448. -/
theorem test_conversions : results [
  (.cvt 0 1 0 1 3 1 0x41, 0x40200000, 0, 2), (.cvt 0 1 0 1 3 1 0x41, 0x40600000, 0, 4), (.cvt 0 1 0 2 3 1 0x41, 0xC0200000, 0, 0xFFFFFFFE),
  (.cvt 0 1 0 1 3 1 0x41, 0x7F800000, 0, 0x7FFFFFFF), (.cvt 0 1 0 1 1 3 0x41, 0xFFFFFFFF, 0, 0xBF800000),
  (.cvt 0 1 0 1 3 4 0x41, 0x3F808000, 0, 0x3F80), (.cvt 0 1 0 1 3 6 0x41, 0x447A0000, 0, 0x7E)] = true := by decide +kernel

/-- The number of `n` bytes that memory holds. -/
def stored (s : State) (pa n : Nat) : Nat := leNat (memBytes s.mem pa n)
def nextOf (i : Instr) (p : Packet) (s : State) : State := match exec i (bringing p s) with | .next t => t | _ => .reset

/-- R186, R218: a store and an atomic at their home. -/
theorem test_home_access :
    (let m (op : MemOp) : Packet := .homeAccess ⟨.load src0, 0x7F0000000000103C, 0, true, some 4, op⟩ 0x400103C devLeaf
    let s := nextOf .homeAccess (m (.write [some 0x34, none, some 0x12])) (running 4 loading)
    stored s 0x400103C 3 = 0x120034 ∧ stored (nextOf .homeAccess (m (.amo 0 false 5)) s) 0x400103C 4 = 0x120039 ∧
    stored (nextOf .homeAccess (m (.amo 9 true (7 + 0x120034 * 2^64))) s) 0x400103C 8 = 7) := by decide +kernel

/-- R50, R176: a store to the Loft leaves the store buffer. -/
theorem test_store_buffer_drain : (let s := nextOf .storeBufferDrain (.storeBufferDrain 138 7) (buffered (.store 0x17FFF true 0 [some 9]))
    memRead (s.core 138).loft 0x17FFF = 9 ∧ (s.core 138).sb = []) := by decide +kernel

/-- R56, R42, R110: a commit merges W0 into G3 and moves BPC. R111, R381: a SCALL traps with its number. -/
theorem test_commits : (let d := (nextOf .blockCommit (.blockCommit 4 0) (ending 4 .br)).strand 4 0
    d.g.getD 3 0 = 9 ∧ d.bpc = 0x2000 ∧ d.blocks = 1 ∧ d.block = none) ∧
    (let d := (nextOf .blockCommit (.blockCommit 4 0) (ending 4 (.scall 5))).strand 4 0
    d.tcause = 0x13 ∧ d.tval = 5 ∧ d.status = 0x201) := by decide +kernel

/-- R381: a user strand's trap: MODE 1, IE 0, PMODE 0, PIE 1; and R390: back. -/
theorem test_trap_and_return : (let s := trapEntry (State.reset.onCore 4 fun k => { k with trapvec := 0x4000 }) 4 0 ⟨8, 0, 0x123, 0x1000, 0x23, 0x1000⟩
    (s.strand 4 0).status = 0x201 ∧ (s.strand 4 0).bpc = 0x4000 ∧ (s.strand 4 0).tval = 0x123 ∧
    ((trapReturn s 4 0).strand 4 0).status = 0x202 ∧ ((trapReturn s 4 0).strand 4 0).bpc = 0x1000) := by decide +kernel

/-- R45: block start puts G3 into W0, and the HALT without operands fires. -/
theorem test_block_fetch : (let s := nextOf .blockFetch (.blockFetch 4 0) (atBoundary.onStrand 4 0 fun d => { d with g := d.g.set 3 0x77 })
    ((s.strand 4 0).block.map fun b => (b.wr[0]?, b.exit.map (·.kind))) = some (some (some (num 0x77)), some .halt)) := by decide +kernel

/-- R254, R257, R237: a version is made, filled and sealed, and its one reference dropped. -/
theorem test_tiles : (let s := nextOf .tnewAtHome (.tnewAtHome (req1 1) ⟨64, 8, 1, 5, false, true, none, none⟩) .reset
    let t := nextOf .tstAtHome (.tstAtHome (req1 1) 8 (List.replicate 8 (some 3))) s
    let u := nextOf .decrementAtHome (.decrementAtHome (req1 1)) t
    ((findVer s r1).map fun e => (e.state, e.pend)) = some (.filling, 8) ∧
    ((findVer t r1).map fun e => (e.state, e.pend, memRead e.bytes 15)) = some (.sealed_, 0, 3) ∧ findVer u r1 = none) := by decide +kernel

/-- R97, R99: NFLAG is cleared by ones, a register keeps only its bits. -/
theorem test_register_writes : (let s := State.reset.onStrand 4 0 fun d => { d with nflag := 1 }
    ((writeStrandReg s 4 0 6 1).strand 4 0).nflag = 0 ∧ ((writeStrandReg s 4 0 6 2).strand 4 0).nflag = 1 ∧
    coreReg ((writeCoreReg s 4 0x122 0x7F).core 4) 0x122 = 0x40 ∧ coreReg ((writeCoreReg s 4 0x121 0xFFFFFFFF).core 4) 0x121 = 0x3FFFF) := by
  decide +kernel

/-- R410: one level up over the limit, one down below it. -/
theorem test_throttle : (let s := nextOf .throttleUpdate (.throttleUpdate 1 2601) .reset
    aget s.thermal.lvl 1 0 = 1 ∧ s.thermal.phit = true ∧ aget (nextOf .throttleUpdate (.throttleUpdate 1 100) s).thermal.lvl 1 0 = 0) := by
  decide +kernel
end Sys2Proof.Tests
end

section
/-! SUPPORT. What a firing whose operands are there does with a result for free targets (R43, R63). -/

namespace Sys2Proof.Machine

/-! ## Sending to free targets -/

/-- The operand slot that kind `k` of a target names: 1 is A, 2 is B, 3 is the predicate (R63). -/
def operandAt (k : Nat) (sl : Slot) : Option Token :=
  match k with
  | 1 => sl.a
  | 2 => sl.b
  | _ => sl.p

theorem targetFree_iff (b : Block) (tg : BitVec 8) : targetFree b tg = true ↔
    tg = 0 ∨ (32 ≤ tg.toNat ∧ tg.toNat < 48 ∧ b.wr[tg.toNat - 32]? = some none) ∨
    (64 ≤ tg.toNat ∧ ∃ sl, b.slots[tg.toNat % 64]? = some sl ∧ operandAt (tg.toNat / 64) sl = none) := by
  simp only [targetFree, Bool.or_eq_true, Bool.and_eq_true, beq_iff_eq, decide_eq_true_eq, or_assoc, and_assoc]
  cases b.slots[tg.toNat % 64]? with
  | none => simp
  | some sl => simp only [Option.isNone_iff_eq_none, Option.some.injEq, exists_eq_left']; rfl

theorem targetFree_fireMark (b : Block) (i : Nat) (tg : BitVec 8) : targetFree (fireMark b i) tg = targetFree b tg := by
  simp only [targetFree, fireMark, List.getElem?_modify]
  cases b.slots[tg.toNat % 64]? with
  | none => rfl
  | some sl => by_cases h : i = tg.toNat % 64 <;> simp [h]

theorem targetsFree_fireMark (b : Block) (i : Nat) (t1 t0 : BitVec 8) :
    targetsFree (fireMark b i) t1 t0 = targetsFree b t1 t0 := by
  simp only [targetsFree, targetFree_fireMark]

/-- A token put at a write slot changes the write slots alone. -/
theorem putAt_writeSlot (n : Nat) (tk : Token) (b : Block) (tg : BitVec 8) (h0 : tg ≠ 0) (h : tg.toNat < 64) :
    putAt n tk b tg = { b with wr := b.wr.set (tg.toNat - 32) (some tk) } := by
  simp only [putAt, h0, h, if_true, if_false]

/-- A token put at an operand slot leaves the write slots. -/
theorem putAt_operand_wr (n : Nat) (tk : Token) (b : Block) (tg : BitVec 8) (h : 64 ≤ tg.toNat) :
    (putAt n tk b tg).wr = b.wr := by
  have h0 : tg ≠ 0 := by rintro rfl; simp at h
  simp only [putAt, h0, Nat.not_lt.mpr h, if_false]

/-- A token put at an operand slot leaves the operand slots of every other name. -/
theorem putAt_operand_other (n : Nat) (tk : Token) (b : Block) (tg : BitVec 8) (i k : Nat) (sl : Slot) (h : 64 ≤ tg.toNat)
    (hs : b.slots[i]? = some sl) (hk : 1 ≤ k ∧ k ≤ 3) (hne : i ≠ tg.toNat % 64 ∨ k ≠ tg.toNat / 64) :
    ∃ sl', (putAt n tk b tg).slots[i]? = some sl' ∧ operandAt k sl' = operandAt k sl := by
  have h0 : tg ≠ 0 := by rintro rfl; simp at h
  have hd : tg.toNat / 64 = 1 ∨ tg.toNat / 64 = 2 ∨ tg.toNat / 64 = 3 := by have := tg.isLt; omega
  have hk : k = 1 ∨ k = 2 ∨ k = 3 := by omega
  simp only [putAt, h0, Nat.not_lt.mpr h, if_false, List.getElem?_modify, hs]
  by_cases hi : tg.toNat % 64 = i
  · have hkd : k ≠ tg.toNat / 64 := hne.resolve_left fun e => e hi.symm
    rcases hd with hd | hd | hd <;> rcases hk with rfl | rfl | rfl <;> simp_all [operandAt]
  · exact ⟨sl, by simp [hi], rfl⟩

/-- A free target is still free when another one has taken its token. -/
theorem targetFree_putAt_other (n : Nat) (tk : Token) (b : Block) (t1 t0 : BitVec 8) (h1 : targetFree b t1 = true)
    (h0 : targetFree b t0 = true) (hne : t1 ≠ t0 ∨ t0 = 0) : targetFree (putAt n tk b t1) t0 = true := by
  rw [targetFree_iff] at h0 ⊢
  rcases h0 with z0 | h0
  · exact .inl z0
  have hne : t1.toNat ≠ t0.toNat := fun e => hne.elim (· (BitVec.eq_of_toNat_eq e)) (by rintro rfl; simp at h0)
  right
  rcases (targetFree_iff b t1).mp h1 with rfl | ⟨lo1, hi1, -⟩ | ⟨lo1, -⟩
  · exact h0
  · rw [putAt_writeSlot n tk b t1 (by rintro rfl; simp at lo1) (by omega)]
    refine h0.imp_left fun ⟨lo0, hi0, w0⟩ => ⟨lo0, hi0, ?_⟩
    rwa [List.getElem?_set_ne (by omega)]
  · rw [putAt_operand_wr n tk b t1 lo1]
    refine h0.imp_right fun ⟨lo0, sl, s0, o0⟩ => ⟨lo0, ?_⟩
    have l0 := t0.isLt
    obtain ⟨sl', s0', o0'⟩ := putAt_operand_other n tk b t1 _ (t0.toNat / 64) sl lo1 s0 (by omega) (by omega)
    exact ⟨sl', s0', o0'.trans o0⟩

/-- A token delivered to two free targets. -/
theorem deliver_two (s : State) (c t : Nat) (tk : Token) (t1 t0 : BitVec 8) (b : Block)
    (hb : (s.strand c t).block = some b) (h : targetsFree b t1 t0 = true) :
    deliver s c t tk [t1, t0] = s.onBlock c t fun _ => putAt (s.cycle + s.lat) tk (putAt (s.cycle + s.lat) tk b t1) t0 := by
  simp only [targetsFree, Bool.and_eq_true, Bool.or_eq_true, bne_iff_ne, beq_iff_eq] at h
  obtain ⟨⟨h1, h0⟩, hne⟩ := h
  have hself : ¬(t1 = t0 ∧ ¬t0 = 0#8) := fun ⟨e, z⟩ => hne.elim (· e) z
  have h01 := fillTarget_free _ t0 tk (s.cycle + s.lat) (targetFree_putAt_other (s.cycle + s.lat) tk b t1 t0 h1 h0 hne)
  simp [deliver, hb, fillTarget_free b _ tk _ h1, fillTarget_free b _ tk _ h0, hself, h01, State.onBlock_onBlock,
    Function.comp_def]

/-! ## Firing with the operands there -/

/-- The operand tokens of a slot, as a firing reads them. -/
def Slot.operands (sl : Slot) : Fired := ⟨sl.a.getD noTok, sl.b.getD noTok, sl.p.getD noTok⟩

theorem Fires.readyOps_eq {s : State} {pr : BitVec 2} {b : Block} {sl : Slot} (h : Fires s pr b sl) (na nb : Bool)
    (ha : na = true → sl.a.isSome = true) (hb : nb = true → sl.b.isSome = true) :
    readyOps b s.cur.2.2 na nb false false pr = some sl.operands := by
  obtain ⟨-, hs, hf, hp⟩ := h
  have hna : (na && sl.a.isNone) = false := by cases na <;> simp_all
  have hnb : (nb && sl.b.isNone) = false := by cases nb <;> simp_all
  simp only [readyOps, hs, hf, hna, hnb, Slot.operands]
  cases hsp : sl.p with
  | none =>
    have h0 : pr = 0 := by simpa [predMet, hsp] using hp
    simp [h0]
  | some p =>
    by_cases h1 : pr = 1#2
    · simp [h1]
    · have hm : pr = 0 ∨ predMatches pr p = true := by simpa [predMet, predMatches, hsp, h1] using hp
      rcases hm with h0 | hm <;> simp [*]

/-- A firing whose operands are there sends its result `f` to targets that take it, and does nothing else. -/
theorem Fires.fireWith_sends {s : State} {pr : BitVec 2} {b : Block} {sl : Slot} (h : Fires s pr b sl) (na nb : Bool)
    (ha : na = true → sl.a.isSome = true) (hb : nb = true → sl.b.isSome = true) (f : Fired → Token) (tgs : List (BitVec 8))
    (ht : ∀ (u : State) (c t : Nat) (tk : Token), (u.strand c t).block = some (fireMark b s.cur.2.2) →
      deliver u c t tk tgs = u.onBlock c t fun _ => tgs.foldl (putAt (u.cycle + u.lat) tk) (fireMark b s.cur.2.2)) :
    fireWith s na nb false false pr (fun o u => deliver u u.cur.1 u.cur.2.1 (f o) tgs) = s.sends b tgs (f sl.operands) := by
  have hblk : (s.strand s.cur.1 s.cur.2.1).block = some b := h.inWindow
  rw [fireWith_ready _ _ _ _ _ _ _ b _ h.inWindow (h.readyOps_eq na nb ha hb)]
  simp only [onNth_eq_modify, State.onBlock_cur]
  rw [ht _ _ _ _ (by simp [hblk, fireMark])]
  simp [State.onBlock_onBlock, State.sends, State.fires, Function.comp_def]

theorem Fires.fireWith_send2 {s : State} {pr : BitVec 2} {b : Block} {sl : Slot} (h : Fires s pr b sl) (na nb : Bool)
    (ha : na = true → sl.a.isSome = true) (hb : nb = true → sl.b.isSome = true) (f : Fired → Token) {t1 t0 : BitVec 8}
    (ht : targetsFree b t1 t0 = true) :
    fireWith s na nb false false pr (fun o u => send2 u t1 t0 (f o)) = s.sends b [t1, t0] (f sl.operands) :=
  h.fireWith_sends na nb ha hb f [t1, t0] fun u c t tk hu =>
    deliver_two u c t tk t1 t0 _ hu (by rwa [targetsFree_fireMark])

theorem Fires.fireWith_send1 {s : State} {pr : BitVec 2} {b : Block} {sl : Slot} (h : Fires s pr b sl) (na nb : Bool)
    (ha : na = true → sl.a.isSome = true) (hb : nb = true → sl.b.isSome = true) (f : Fired → Token) {t0 : BitVec 8}
    (ht : targetFree b t0 = true) :
    fireWith s na nb false false pr (fun o u => send1 u t0 (f o)) = s.sends b [t0] (f sl.operands) :=
  h.fireWith_sends na nb ha hb f [t0] fun u c t tk hu => deliver_one u c t tk t0 _ hu (by rwa [targetFree_fireMark])

end Sys2Proof.Machine
end

section
/-! SUPPORT. Lists of lanes and the tokens made of them (R38-R41): each list of lanes that the model builds is `laneList` of a
function of the lane number, and a token made of it is a result with those lanes. -/

namespace Sys2Proof.Machine

/-! ## Numbers as lists of digits -/

/-- The number with the `k`-bit digits `ds`, the lowest first. -/
def fromDigits (k : Nat) : List Nat → Nat
  | [] => 0
  | d :: ds => d + 2^k * fromDigits k ds

theorem packLanes_eq_fromDigits (w : Nat) (ls : List (Option Nat)) :
    packLanes w ls = fromDigits w (ls.map fun l => l.getD 0 % 2^w) := by
  induction ls with
  | nil => rfl
  | cons l ls ih => simp only [packLanes, ih, List.map_cons, fromDigits]

theorem packNulls_eq_fromDigits (w : Nat) (ls : List (Option Nat)) :
    packNulls w ls = fromDigits (w / 8) (ls.map fun l => if l.isNone then 2^(w / 8) - 1 else 0) := by
  induction ls with
  | nil => rfl
  | cons l ls ih => simp only [packNulls, ih, List.map_cons, fromDigits]

theorem fromDigits_lt (k : Nat) (ds : List Nat) (hd : ∀ d ∈ ds, d < 2^k) : fromDigits k ds < 2^(k * ds.length) := by
  induction ds with
  | nil => exact Nat.one_pos
  | cons d ds ih =>
    obtain ⟨h1, h2⟩ := List.forall_mem_cons.mp hd
    calc d + 2^k * fromDigits k ds
      _ < 2^k + 2^k * fromDigits k ds := Nat.add_lt_add_right h1 _
      _ = 2^k * (fromDigits k ds + 1) := by rw [Nat.mul_succ, Nat.add_comm]
      _ ≤ 2^k * 2^(k * ds.length) := Nat.mul_le_mul_left _ (ih h2)
      _ = 2^(k * (d :: ds).length) := by rw [List.length_cons, Nat.mul_succ, Nat.pow_add, Nat.mul_comm]

/-- Digit `i` of a number of digits, 0 past the last one. -/
theorem fromDigits_digit (k : Nat) (ds : List Nat) (hd : ∀ d ∈ ds, d < 2^k) (i : Nat) :
    fromDigits k ds / 2^(k * i) % 2^k = ds.getD i 0 := by
  induction ds generalizing i with
  | nil => rw [fromDigits, Nat.zero_div, Nat.zero_mod, List.getD_nil]
  | cons d ds ih =>
    obtain ⟨h1, h2⟩ := List.forall_mem_cons.mp hd
    cases i with
    | zero =>
      rw [fromDigits, Nat.mul_zero, Nat.pow_zero, Nat.div_one, Nat.add_mul_mod_self_left, Nat.mod_eq_of_lt h1,
        List.getD_cons_zero]
    | succ i =>
      rw [fromDigits, Nat.mul_succ, Nat.add_comm (k * i), Nat.pow_add, ← Nat.div_div_eq_div_mul,
        Nat.add_mul_div_left _ _ (Nat.two_pow_pos k), Nat.div_eq_of_lt h1, Nat.zero_add, ih h2, List.getD_cons_succ]

/-- A number of `k`-bit digits that fits in a bit vector has them as its fields. -/
theorem extractLsb'_fromDigits (n k : Nat) (ds : List Nat) (i : Nat) (hd : ∀ d ∈ ds, d < 2^k) (hn : k * ds.length ≤ n) :
    (BitVec.ofNat n (fromDigits k ds)).extractLsb' (k * i) k = .ofNat k (ds.getD i 0) := by
  have hlt : fromDigits k ds < 2^n := Nat.lt_of_lt_of_le (fromDigits_lt k ds hd) (Nat.pow_le_pow_right Nat.two_pos hn)
  apply BitVec.eq_of_toNat_eq
  rw [BitVec.extractLsb'_toNat, BitVec.toNat_ofNat, BitVec.toNat_ofNat, Nat.mod_eq_of_lt hlt, Nat.shiftRight_eq_div_pow,
    ← fromDigits_digit k ds hd i, Nat.mod_mod]

/-- Past its digits a number of `k`-bit digits has no bits. -/
theorem testBit_fromDigits_above (k : Nat) (ds : List Nat) (j : Nat) (hd : ∀ d ∈ ds, d < 2^k) (hj : k * ds.length ≤ j) :
    (fromDigits k ds).testBit j = false :=
  Nat.testBit_lt_two_pow (Nat.lt_of_lt_of_le (fromDigits_lt k ds hd) (Nat.pow_le_pow_right Nat.two_pos hj))

/-! ## A token of lanes of whole bytes -/

section
variable {w : Nat} (ls : List (Option Nat))

theorem packLanes_digits : ∀ d ∈ ls.map fun l => l.getD 0 % 2^w, d < 2^w := by
  simp only [List.mem_map]
  rintro d ⟨l, -, rfl⟩
  exact Nat.mod_lt _ (Nat.two_pow_pos w)

theorem packNulls_digits : ∀ d ∈ ls.map fun l => if l.isNone then 2^(w / 8) - 1 else 0, d < 2^(w / 8) := by
  simp only [List.mem_map]
  rintro d ⟨l, -, rfl⟩
  split
  · exact Nat.sub_lt (Nat.two_pow_pos _) Nat.one_pos
  · exact Nat.two_pow_pos _

variable (hw : 8 * (w / 8) = w)
include hw

/-- Lanes of whole bytes: their bits are those of their bytes. -/
theorem lane_bits (n : Nat) : w * n = 8 * (w / 8 * n) := by rw [← Nat.mul_assoc, hw]

variable (hk : 0 < w / 8)
include hk

theorem ofLanes_bytes : ofLanes w ls = ⟨.ofNat 512 (packLanes w ls), .ofNat 64 (packNulls w ls)⟩ :=
  if_neg (by omega)

/-- Past its lanes a token is zero and not null. -/
theorem ofLanes_above (j : Nat) (hj : w / 8 * ls.length ≤ j) :
    (ofLanes w ls).nul.getLsbD j = false ∧ (ofLanes w ls).pay.extractLsb' (8 * j) 8 = 0 := by
  have hbits := lane_bits hw ls.length
  rw [ofLanes_bytes ls hw hk, packNulls_eq_fromDigits, packLanes_eq_fromDigits]
  constructor
  · rw [BitVec.getLsbD_ofNat, testBit_fromDigits_above _ _ j (packNulls_digits ls) (by rwa [List.length_map]), Bool.and_false]
  · ext i hi
    rw [BitVec.getElem_extractLsb', BitVec.getLsbD_ofNat, testBit_fromDigits_above _ _ _ (packLanes_digits ls)
      (by rw [List.length_map]; omega), Bool.and_false]
    simp only [BitVec.ofNat_eq_ofNat, BitVec.getElem_zero]

variable (hL : w / 8 * ls.length ≤ 64)
include hL

theorem pay_ofLanes (i : Nat) : (ofLanes w ls).pay.extractLsb' (w * i) w = .ofNat w ((nthLane ls i).getD 0) := by
  have hbits := lane_bits hw ls.length
  rw [ofLanes_bytes ls hw hk, packLanes_eq_fromDigits,
    extractLsb'_fromDigits 512 w _ i (packLanes_digits ls) (by rw [List.length_map]; omega)]
  apply BitVec.eq_of_toNat_eq
  cases h : ls[i]? <;> simp [nthLane, List.getD_eq_getElem?_getD, h]

theorem nul_ofLanes (i : Nat) : (ofLanes w ls).nul.extractLsb' (w / 8 * i) (w / 8) =
    if ls[i]? = some none then BitVec.allOnes (w / 8) else 0 := by
  rw [ofLanes_bytes ls hw hk, packNulls_eq_fromDigits,
    extractLsb'_fromDigits 64 (w / 8) _ i (packNulls_digits ls) (by rwa [List.length_map])]
  rcases h : ls[i]? with _ | _ | x
  all_goals
    apply BitVec.eq_of_toNat_eq
    simp [List.getD_eq_getElem?_getD, h]

end

section
/-! ## Lanes of a token as functions of the lane number -/

/-- The lanes of a shape as the model lists them, lane `i` being `g i`. -/
def laneList (sh : BitVec 3) (g : Nat → Option (BitVec (laneW sh))) : List (Option Nat) :=
  (List.range (laneN sh)).map fun i => (g i).map BitVec.toNat

variable {sh : BitVec 3} (g : Nat → Option (BitVec (laneW sh)))

@[simp] theorem length_laneList : (laneList sh g).length = laneN sh := by simp [laneList]

theorem getElem?_laneList (i : Nat) (h : i < laneN sh) : (laneList sh g)[i]? = some ((g i).map BitVec.toNat) := by
  simp [laneList, h]

theorem nthLane_laneList (i : Nat) (h : i < laneN sh) : nthLane (laneList sh g) i = (g i).map BitVec.toNat := by
  simp [nthLane, getElem?_laneList g i h]

/-- A list with the right entries is the lane list. -/
theorem eq_laneList {ls : List (Option Nat)} (hl : ls.length = laneN sh)
    (h : ∀ i, i < laneN sh → nthLane ls i = (g i).map BitVec.toNat) : ls = laneList sh g := by
  apply List.ext_getElem (by simp [hl])
  intro i h1 h2
  have hi := h i (hl ▸ h1)
  simpa [nthLane, laneList, h1] using hi

/-- A list of lanes built by lane number. -/
theorem map_range_eq_laneList (f : Nat → Option Nat) (h : ∀ i, i < laneN sh → f i = (g i).map BitVec.toNat) :
    (List.range (laneN sh)).map f = laneList sh g :=
  List.map_congr_left fun i hi => h i (List.mem_range.mp hi)

/-- The shapes of integer lanes: whole bytes, in a token of 64 of them (R106, R107). -/
theorem shape_bytes (h : vecOrScalar sh = true) :
    0 < laneW sh / 8 ∧ 8 * (laneW sh / 8) = laneW sh ∧ laneW sh / 8 * laneN sh ≤ 64 := by
  revert sh; decide

theorem vecOrScalar_of_vecShape (h : vecShape sh = true) : vecOrScalar sh = true := by
  revert sh; decide

theorem laneW_le (sh : BitVec 3) : laneW sh ≤ 64 := by
  revert sh; decide

theorem laneN_pos (sh : BitVec 3) : 0 < laneN sh := by
  revert sh; decide

theorem lanesOf_eq_laneList (h : vecOrScalar sh = true) (t : Token) : lanesOf sh t = laneList sh (laneOpt (laneW sh) t) := by
  obtain ⟨hk, hw, -⟩ := shape_bytes h
  simp only [lanesOf, laneList]
  congr 1
  funext i
  have hnul : laneNull t (laneW sh) i = true ↔ ¬t.nul.extractLsb' (laneW sh / 8 * i) (laneW sh / 8) = 0 := by
    simp [laneNull, show ¬laneW sh < 8 by omega, BitVec.toNat_eq, Nat.shiftRight_eq_div_pow]
  simp only [laneOf, laneOpt, hnul, ite_not]
  split <;> simp [laneAt, Nat.shiftRight_eq_div_pow]

/-- A token made of a lane list is a result with those lanes (R38). -/
theorem isResult_mkTok_laneList (h : vecOrScalar sh = true) : IsResult sh (mkTok sh (laneList sh g)) g := by
  obtain ⟨hk, hw, hL⟩ := shape_bytes h
  have hL' : laneW sh / 8 * (laneList sh g).length ≤ 64 := by simpa using hL
  refine ⟨fun i hi => ?_, fun j _ hj => ofLanes_above _ hw hk j (by simpa using hj)⟩
  simp only [laneOpt, mkTok, pay_ofLanes _ hw hk hL', nul_ofLanes _ hw hk hL', getElem?_laneList g i hi,
    nthLane_laneList g i hi]
  cases g i <;> simp [show 8 ≤ laneW sh by omega]

/-- A `.d` token of one lane of at most 64 bits, read without sign (R124). -/
theorem mkTok_zeroExtend {w : Nat} (hw : w ≤ 64) (v : Option (BitVec w)) :
    mkTok 0 [v.map BitVec.toNat] = mkTok 0 (laneList 0 fun _ => v.map (·.zeroExtend 64)) := by
  cases v with
  | none => rfl
  | some a =>
    have h : (a.zeroExtend 64).toNat = a.toNat := BitVec.toNat_setWidth_of_le hw
    exact congrArg (fun n => mkTok 0 [some n]) h.symm

end

/-! ## Gating and combining lane lists -/

theorem zipIdx_map_range {α : Type} (f : Nat → α) (n : Nat) :
    ((List.range n).map f).zipIdx = (List.range n).map fun i => (f i, i) := by
  apply List.ext_getElem <;> simp

section
variable {sh : BitVec 3} (g : Nat → Option (BitVec (laneW sh)))

/-- PR 01 on listed lanes (R41). A predicate slot that is empty reads as a token without a bit set. -/
theorem gateLanes_laneList (pr : BitVec 2) (p : Option Token) :
    gateLanes pr (p.getD noTok) (laneList sh g) = laneList sh fun i => gateOpt pr p i (g i) := by
  by_cases h1 : pr = 1#2
  · simp only [gateLanes, laneList, zipIdx_map_range, h1]
    refine (List.map_map ..).trans (List.map_congr_left fun i _ => ?_)
    cases p with
    | none => simp [gateOpt, maskBit, noTok]
    | some m => exact (apply_ite (Option.map BitVec.toNat) (maskBit m i = true) (g i) none).symm
  · simp [gateLanes, gateOpt, h1]

/-- A lane operation on two listed operands: null where either is (R40). -/
theorem zipLanes_laneList (f : Nat → Nat → Nat) (F : BitVec (laneW sh) → BitVec (laneW sh) → BitVec (laneW sh))
    (hf : ∀ a b, f a.toNat b.toNat = (F a b).toNat) (k : Nat → Option (BitVec (laneW sh))) :
    zipLanes f (laneList sh g) (laneList sh k) = laneList sh fun i => both F (g i) (k i) := by
  apply eq_laneList _ (by simp [zipLanes])
  intro i hi
  simp only [nthLane, zipLanes, List.getElem?_zipWith, getElem?_laneList _ i hi]
  cases g i <;> cases k i <;> simp [both, hf]

end

end Sys2Proof.Machine
end

section
/-! SUPPORT. The firings of lane forms and their results (R43). -/

namespace Sys2Proof.Machine

section
variable {s : State} {pr : BitVec 2} {b : Block} {sl : Slot} {sh : BitVec 3} {t1 t0 : BitVec 8} {x y : Token} {i : Instr}
  {g : Nat → Option (BitVec (laneW sh))}

/-- A D form whose result token has the lanes `g` completes with it in both targets. -/
theorem Fires.result2 (h : Fires s pr b sl) (hv : vecOrScalar sh = true) (ht : targetsFree b t1 t0 = true) (nb : Bool)
    (ha : sl.a.isSome = true) (hb : nb = true → sl.b.isSome = true) (f : Fired → Token)
    (hf : f sl.operands = mkTok sh (laneList sh g))
    (hi : exec i s = .next (fireWith s true nb false false pr fun o u => send2 u t1 t0 (f o))) :
    ∃ tk, IsResult sh tk g ∧ exec i s = .next (s.sends b [t1, t0] tk) :=
  ⟨_, isResult_mkTok_laneList g hv, by rw [hi, h.fireWith_send2 true nb (fun _ => ha) hb f ht, hf]⟩

/-- An I form of one operand whose result token has the lanes `g` completes with it in its target. -/
theorem Fires.result1 (h : Fires s pr b sl) (hv : vecOrScalar sh = true) (ht : targetFree b t0 = true)
    (ha : sl.a.isSome = true) (f : Fired → Token) (hf : f sl.operands = mkTok sh (laneList sh g))
    (hi : exec i s = .next (fireA s pr fun o u => send1 u t0 (f o))) :
    ∃ tk, IsResult sh tk g ∧ exec i s = .next (s.sends b [t0] tk) :=
  ⟨_, isResult_mkTok_laneList g hv, by rw [hi, fireA, h.fireWith_send1 true false (fun _ => ha) nofun f ht, hf]⟩

/-- A two-operand lane form: its lanes come from those of the operands, and PR 01 gates them. -/
theorem Fires.laneBin_result (h : Fires s pr b sl) (hv : vecOrScalar sh = true) (ht : targetsFree b t1 t0 = true)
    (hx : sl.a = some x) (hy : sl.b = some y) (F : List (Option Nat) → List (Option Nat) → List (Option Nat))
    (hF : F (laneList sh (laneOpt (laneW sh) x)) (laneList sh (laneOpt (laneW sh) y)) = laneList sh g)
    (hi : exec i s = .next (laneBin F pr sh t1 t0 s)) :
    ∃ tk, IsResult sh tk (fun i => gateOpt pr sl.p i (g i)) ∧ exec i s = .next (s.sends b [t1, t0] tk) := by
  refine h.result2 hv ht true (by simp [hx]) (by simp [hy])
    (fun o => mkTok sh (gateLanes pr o.p (F (lanesOf sh o.a) (lanesOf sh o.b)))) ?_ hi
  simp only [Slot.operands, hx, hy, Option.getD_some, lanesOf_eq_laneList hv, hF, gateLanes_laneList]

end

end Sys2Proof.Machine
end

section
/-! PROOF. Division (R119). -/

namespace Sys2Proof.Machine

theorem sextI_toNat {w : Nat} (hw : 0 < w) (a : BitVec w) : sextI a.toNat w = a.toInt := by
  obtain ⟨n, rfl⟩ : ∃ n, w = n + 1 := ⟨w - 1, by omega⟩
  have ha := a.isLt
  have hiff : 2 * a.toNat < 2^(n + 1) ↔ a.toNat < 2^n := by omega
  simp only [sextI, BitVec.toInt_eq_toNat_cond, Nat.mod_eq_of_lt ha, Nat.add_sub_cancel, hiff]
  push_cast
  rfl

theorem wrapN_eq_ofInt (x : Int) (w : Nat) : wrapN x w = (BitVec.ofInt w x).toNat := by
  simp [wrapN, BitVec.toNat_ofInt]

theorem toNat_eq_zero_iff {w : Nat} (b : BitVec w) : b.toNat = 0 ↔ b = 0 := by
  simp [BitVec.toNat_eq]

theorem laneDiv_toNat {w : Nat} (hw : 0 < w) (a b : BitVec w) :
    laneDiv w a.toNat b.toNat = (if b = 0 then BitVec.allOnes w else a.sdiv b).toNat := by
  simp only [laneDiv, toNat_eq_zero_iff, apply_ite BitVec.toNat, BitVec.toNat_allOnes, sextI_toNat hw, wrapN_eq_ofInt, truncDiv]
  congr 2
  apply BitVec.eq_of_toInt_eq
  rw [BitVec.toInt_ofInt, BitVec.toInt_sdiv]

theorem laneDivu_toNat {w : Nat} (a b : BitVec w) :
    laneDivu w a.toNat b.toNat = (if b = 0 then BitVec.allOnes w else a.udiv b).toNat := by
  simp only [laneDivu, toNat_eq_zero_iff, apply_ite BitVec.toNat, BitVec.toNat_allOnes]
  rfl

theorem laneRem_toNat {w : Nat} (hw : 0 < w) (a b : BitVec w) :
    laneRem w a.toNat b.toNat = (if b = 0 then a else a.srem b).toNat := by
  simp only [laneRem, toNat_eq_zero_iff, apply_ite BitVec.toNat, sextI_toNat hw, wrapN_eq_ofInt, truncDiv, ← Int.tmod_def]
  rw [← BitVec.toInt_srem, BitVec.ofInt_toInt]

theorem laneRemu_toNat {w : Nat} (a b : BitVec w) :
    laneRemu w a.toNat b.toNat = (if b = 0 then a else a.umod b).toNat := by
  simp only [laneRemu, toNat_eq_zero_iff, apply_ite BitVec.toNat]
  rfl

/-- Each division form of the model is the one of its table (R119). -/
theorem div_isLaneBin (e : DForm × ((w : Nat) → BitVec w → BitVec w → BitVec w)) (he : e ∈ laneTableDiv) :
    ∃ f : Nat → Nat → Nat → Nat,
      (∀ pr sh t1 t0 s, exec (e.1 pr sh t1 t0) s = .next (laneBin (zipLanes (f (laneW sh))) pr sh t1 t0 s)) ∧
      (∀ pr sh t1 t0, (e.1 pr sh t1 t0).wf = vecOrScalar sh) ∧
      ∀ w, 0 < w → ∀ a b : BitVec w, f w a.toNat b.toNat = (e.2 w a b).toNat := by
  simp only [laneTableDiv, List.mem_cons, List.not_mem_nil, or_false] at he
  rcases he with rfl | rfl | rfl | rfl
  · exact ⟨laneDiv, fun _ _ _ _ _ => rfl, fun _ _ _ _ => rfl, fun _ => laneDiv_toNat⟩
  · exact ⟨laneDivu, fun _ _ _ _ _ => rfl, fun _ _ _ _ => rfl, fun _ _ => laneDivu_toNat⟩
  · exact ⟨laneRem, fun _ _ _ _ _ => rfl, fun _ _ _ _ => rfl, fun _ => laneRem_toNat⟩
  · exact ⟨laneRemu, fun _ _ _ _ _ => rfl, fun _ _ _ _ => rfl, fun _ _ => laneRemu_toNat⟩

/-- Settles O2: each division is a lane form whose lane result, a zero divisor and overflow included, is that of the table. -/
theorem divisionNeverFaults : Obligations.DivisionNeverFaults := by
  unfold Obligations.DivisionNeverFaults
  intro e he pr sh t1 t0 s b sl x y hwf h hx hy ht
  obtain ⟨f, hexec, hshape, hlane⟩ := div_isLaneBin e he
  have hv : vecOrScalar sh = true := hshape pr sh t1 t0 ▸ hwf
  obtain ⟨hk, hw, -⟩ := shape_bytes hv
  exact h.laneBin_result hv ht hx hy _ (zipLanes_laneList _ _ _ (hlane _ (by omega)) _) (hexec pr sh t1 t0 s)

end Sys2Proof.Machine
end

section
/-! PROOF. The permuting forms and VCMPR (R124-R126). -/

namespace Sys2Proof.Machine

/-! ## What they do to lists of lanes -/

section
variable {sh : BitVec 3} (g k : Nat → Option (BitVec (laneW sh)))

/-- VPERM (R124): lane `i` is the lane of A that lane `i` of B names, null where either is. -/
theorem permLanes_laneList : permLanes (laneList sh g) (laneList sh k) =
    laneList sh fun i => (k i).bind fun j => g (j.toNat % laneN sh) := by
  refine (List.map_map ..).trans (map_range_eq_laneList _ _ fun i _ => ?_)
  simp only [Function.comp_apply]
  cases k i with
  | none => rfl
  | some j => simp [nthLane_laneList g _ (Nat.mod_lt _ (laneN_pos sh))]

/-- VZIP (R124): the low halves interleave. -/
theorem zipHalf_laneList : zipHalf (laneList sh g) (laneList sh k) =
    laneList sh fun i => if i % 2 = 0 then g (i / 2) else k (i / 2) := by
  rw [zipHalf, length_laneList]
  refine map_range_eq_laneList _ _ fun i hi => ?_
  rw [nthLane_laneList g _ (by omega), nthLane_laneList k _ (by omega), apply_ite (Option.map BitVec.toNat)]

/-- VUNZIP (R124): the even lanes of A, then those of B. -/
theorem unzipHalf_laneList : unzipHalf (laneList sh g) (laneList sh k) =
    laneList sh fun i => if i < laneN sh / 2 then g (2 * i) else k (2 * (i - laneN sh / 2)) := by
  rw [unzipHalf, length_laneList]
  refine map_range_eq_laneList _ _ fun i hi => ?_
  split
  · exact nthLane_laneList g _ (by omega)
  · exact nthLane_laneList k _ (by omega)

/-- VBCAST (R124): every lane is lane 0. -/
theorem bcast_laneList :
    ((laneList sh g).map fun _ => nthLane (laneList sh g) 0) = laneList sh fun _ => g 0 := by
  rw [nthLane_laneList g 0 (laneN_pos sh)]
  simp [laneList, Function.comp_def]

/-- VINS (R124): one lane is lane 0 of B, the others those of A. -/
theorem ins_laneList (n : Nat) :
    onNth (fun _ => nthLane (laneList sh k) 0) (laneList sh g) n = laneList sh fun i => if i = n then k 0 else g i := by
  rw [onNth_eq_modify, nthLane_laneList k 0 (laneN_pos sh)]
  apply eq_laneList _ (by simp)
  intro i hi
  by_cases hn : i = n
  · subst hn
    simp [nthLane, getElem?_laneList g i hi]
  · simp [nthLane, getElem?_laneList g i hi, hn, Ne.symm hn]

/-- VSLIDE (R124): lane `i - n` of A, and 0 where A has none. -/
theorem slideLanes_laneList (n : Int) : slideLanes n (laneList sh g) =
    laneList sh fun (i : Nat) => if 0 ≤ (i : Int) - n ∧ (i : Int) - n < laneN sh then g ((i : Int) - n).toNat else some 0 := by
  rw [slideLanes, length_laneList]
  refine map_range_eq_laneList _ _ fun i hi => ?_
  split
  · exact nthLane_laneList g _ (by omega)
  · rfl

/-- The lanes that VCMPR takes, in ascending order (R126): those that the mask selects and that are not null. -/
def selected (sh : BitVec 3) (m : Token) (g : Nat → Option (BitVec (laneW sh))) : List Nat :=
  (List.range (laneN sh)).filter fun i => !m.nul.getLsbD (i / 8) && m.pay.getLsbD i && (g i).isSome

theorem cmprLanes_eq (m : Token) (a : List (Option Nat)) : cmprLanes m a =
    let sel := (a.zipIdx.filter fun e => maskBit m e.2 && e.1.isSome).map (·.1)
    sel ++ List.replicate (a.length - sel.length) none := rfl

/-- VCMPR (R126): lane `n` is the `n`-th selected lane, null where there is none. -/
theorem cmprLanes_laneList (m : Token) : cmprLanes m (laneList sh g) = laneList sh fun n => (selected sh m g)[n]?.bind g := by
  have hsel : (((laneList sh g).zipIdx.filter fun e => maskBit m e.2 && e.1.isSome).map (·.1)) =
      (selected sh m g).map fun i => (g i).map BitVec.toNat := by
    rw [laneList, zipIdx_map_range, List.filter_map, List.map_map, selected]
    congr 2
    funext i
    simp [maskBit, Bool.and_comm (m.pay.getLsbD i)]
  have hlen : (selected sh m g).length ≤ laneN sh := by
    simpa [selected] using List.length_filter_le (_ : Nat → Bool) (List.range (laneN sh))
  simp only [cmprLanes_eq, hsel, List.length_map, length_laneList]
  apply eq_laneList _ (by simp only [List.length_append, List.length_map, List.length_replicate]; omega)
  intro n hn
  by_cases h : n < (selected sh m g).length
  · simp [nthLane, List.getElem?_append, h]
  · simp only [nthLane, List.getElem?_append, List.length_map, h, if_false, List.getElem?_replicate]
    rw [List.getElem?_eq_none (Nat.not_lt.mp h)]
    split <;> rfl

end

/-! ## The permuting forms -/

section
variable {s : State} {pr : BitVec 2} {b : Block} {sl : Slot} {sh : BitVec 3} {t1 t0 : BitVec 8} {x m : Token}
  (h : Fires s pr b sl) (hv : vecShape sh = true) (hx : sl.a = some x)
include h hv hx

theorem Fires.vbcast_result (ht : targetsFree b t1 t0 = true) :
    ∃ tk, IsResult sh tk (fun i => gateOpt pr sl.p i (laneOpt (laneW sh) x 0)) ∧
      exec (.vbcast pr sh t1 t0) s = .next (s.sends b [t1, t0] tk) := by
  have hv := vecOrScalar_of_vecShape hv
  refine h.result2 hv ht false (by simp [hx]) nofun
    (fun o => mkTok sh (gateLanes pr o.p ((lanesOf sh o.a).map fun _ => nthLane (lanesOf sh o.a) 0))) ?_ rfl
  simp only [Slot.operands, hx, Option.getD_some, lanesOf_eq_laneList hv, bcast_laneList, gateLanes_laneList]

theorem Fires.vslide_result (imm : BitVec 12) (ht : targetFree b t0 = true) :
    ∃ tk, IsResult sh tk (fun i => gateOpt pr sl.p i
        (if 0 ≤ (i : Int) - imm.toInt ∧ (i : Int) - imm.toInt < laneN sh
          then laneOpt (laneW sh) x ((i : Int) - imm.toInt).toNat else some 0)) ∧
      exec (.vslide pr sh imm t0) s = .next (s.sends b [t0] tk) := by
  have hv := vecOrScalar_of_vecShape hv
  refine h.result1 hv ht (by simp [hx])
    (fun o => mkTok sh (gateLanes pr o.p (slideLanes imm.toInt (lanesOf sh o.a)))) ?_ rfl
  simp only [Slot.operands, hx, Option.getD_some, lanesOf_eq_laneList hv, slideLanes_laneList, gateLanes_laneList]

/-- PR 01 gates the lane that VEXT takes, not its result (R108). -/
theorem Fires.vext_result (imm : BitVec 12) (ht : targetFree b t0 = true) (hi : imm.toNat < laneN sh) :
    ∃ tk, IsResult 0 tk (fun _ => (gateOpt pr sl.p imm.toNat (laneOpt (laneW sh) x imm.toNat)).map (·.zeroExtend 64)) ∧
      exec (.vext pr sh imm t0) s = .next (s.sends b [t0] tk) := by
  have hv := vecOrScalar_of_vecShape hv
  refine h.result1 (by decide) ht (by simp [hx])
    (fun o => mkTok 0 [nthLane (gateLanes pr o.p (lanesOf sh o.a)) imm.toNat]) ?_ rfl
  simp only [Slot.operands, hx, Option.getD_some, lanesOf_eq_laneList hv, gateLanes_laneList, nthLane_laneList _ _ hi]
  exact mkTok_zeroExtend (laneW_le sh) _

theorem Fires.vcmpr_result (hm : sl.b = some m) (ht : targetsFree b t1 t0 = true) :
    ∃ tk, IsResult sh tk (fun n => gateOpt pr sl.p n ((selected sh m (laneOpt (laneW sh) x))[n]?.bind (laneOpt (laneW sh) x))) ∧
      exec (.vcmpr pr sh t1 t0) s = .next (s.sends b [t1, t0] tk) := by
  have hv := vecOrScalar_of_vecShape hv
  refine h.result2 hv ht true (by simp [hx]) (by simp [hm])
    (fun o => mkTok sh (gateLanes pr o.p (cmprLanes o.b (lanesOf sh o.a)))) ?_ rfl
  simp only [Slot.operands, hx, hm, Option.getD_some, lanesOf_eq_laneList hv, cmprLanes_laneList, gateLanes_laneList]

end

/-- Settles O5: each form rearranges the lanes of its operands as its lane lemma says, and PR 01 gates what comes out. -/
theorem permutesAndCompress : Obligations.PermutesAndCompress := by
  unfold Obligations.PermutesAndCompress
  refine ⟨fun pr sh imm t1 t0 s b sl x hsh h hx => ?_,
    fun pr sh t1 t0 s b sl x m hsh h hx hm ht => h.vcmpr_result hsh hx hm ht⟩
  have hv := vecOrScalar_of_vecShape hsh
  refine ⟨fun ht => ⟨h.vbcast_result hsh hx ht, fun y hy => ⟨?_, ?_, ?_, fun lane _ => ?_⟩⟩,
    fun ht => ⟨fun _ => h.vslide_result hsh hx imm ht, fun hwf => ?_⟩⟩
  · exact h.laneBin_result hv ht hx hy _ (permLanes_laneList ..) rfl
  · exact h.laneBin_result hv ht hx hy _ (zipHalf_laneList ..) rfl
  · exact h.laneBin_result hv ht hx hy _ (unzipHalf_laneList ..) rfl
  · exact h.laneBin_result hv ht hx hy _ (ins_laneList ..) rfl
  · have hlane : imm.toNat < laneN sh := by simpa [Instr.wf, hsh] using hwf
    exact h.vext_result hsh hx imm ht hlane

end Sys2Proof.Machine
end

section
/-! PROOF. Trap entry and return (R381, R390). -/

namespace Sys2Proof.Machine

/-! ## The bits of STATUS across a trap and its return -/

theorem getLsbD_and_not {w : Nat} (x m : BitVec w) (j : Nat) : (x &&& ~~~m).getLsbD j = (x.getLsbD j && !m.getLsbD j) := by
  by_cases hj : j < w
  · simp [hj]
  · simp [BitVec.getLsbD_of_ge x j (by omega)]

/-- The bits that TRET writes: MODE and IE. -/
theorem getLsbD_retMask (j : Nat) : (0x3 : Word).getLsbD j = decide (j = 0 ∨ j = 1) := by
  have h : (0x3 : Word) = .twoPow 64 0 ||| .twoPow 64 1 := by decide
  simp [h, eq_comm]

/-- The bits that a trap entry writes: MODE, IE, PMODE and PIE. -/
theorem getLsbD_trapMask (j : Nat) : (0x303 : Word).getLsbD j = decide (j = 0 ∨ j = 1 ∨ j = 8 ∨ j = 9) := by
  have h : (0x303 : Word) = .twoPow 64 0 ||| .twoPow 64 1 ||| .twoPow 64 8 ||| .twoPow 64 9 := by decide
  simp [h, eq_comm, Bool.or_assoc]

/-- A flag put at bit `i` of a word sets that bit alone. -/
theorem getLsbD_flagAt (p : Bool) {i : Nat} (hi : i < 64) (j : Nat) :
    (if p then BitVec.twoPow 64 i else 0 : Word).getLsbD j = (p && decide (j = i)) := by
  cases p <;> simp [hi, eq_comm]

theorem getLsbD_statusTrap (st : Word) (j : Nat) : (statusTrap st).getLsbD j =
    (st.getLsbD j && !decide (j = 0 ∨ j = 1 ∨ j = 8 ∨ j = 9) || decide (j = 0) ||
      st.getLsbD 0 && decide (j = 8) || st.getLsbD 1 && decide (j = 9)) := by
  have h : statusTrap st = (st &&& ~~~(0x303 : Word)) ||| (if true then .twoPow 64 0 else 0) |||
      (if st.getLsbD 0 then .twoPow 64 8 else 0) ||| (if st.getLsbD 1 then .twoPow 64 9 else 0) := rfl
  rw [h, BitVec.getLsbD_or, BitVec.getLsbD_or, BitVec.getLsbD_or, getLsbD_and_not, getLsbD_trapMask,
    getLsbD_flagAt _ (by decide), getLsbD_flagAt _ (by decide), getLsbD_flagAt _ (by decide), Bool.true_and]

theorem getLsbD_statusRet (st : Word) (j : Nat) : (statusRet st).getLsbD j =
    (st.getLsbD j && !decide (j = 0 ∨ j = 1) || st.getLsbD 8 && decide (j = 0) || st.getLsbD 9 && decide (j = 1)) := by
  have h : statusRet st = (st &&& ~~~(0x3 : Word)) ||| (if st.getLsbD 8 then .twoPow 64 0 else 0) |||
      (if st.getLsbD 9 then .twoPow 64 1 else 0) := rfl
  rw [h, BitVec.getLsbD_or, BitVec.getLsbD_or, getLsbD_and_not, getLsbD_retMask,
    getLsbD_flagAt _ (by decide), getLsbD_flagAt _ (by decide)]

/-- A trap entry keeps the bits of STATUS other than MODE, IE, PMODE and PIE. -/
theorem getLsbD_statusTrap_other (st : Word) {j : Nat} (h : 2 ≤ j) (h8 : j ≠ 8) (h9 : j ≠ 9) :
    (statusTrap st).getLsbD j = st.getLsbD j := by
  simp [getLsbD_statusTrap, h8, h9, show j ≠ 0 by omega, show j ≠ 1 by omega]

/-- TRET keeps the bits of STATUS other than MODE and IE. -/
theorem getLsbD_statusRet_other (st : Word) {j : Nat} (h : 2 ≤ j) : (statusRet st).getLsbD j = st.getLsbD j := by
  simp [getLsbD_statusRet, show j ≠ 0 by omega, show j ≠ 1 by omega]

/-! ## The strand after an entry, a write of TBLK and a return -/

/-- TTIME is TIMEBASE[39:0] (R381). -/
theorem stamp_zeroExtend (s : State) : s.stamp.zeroExtend 64 = s.timebase &&& 0xFFFFFFFFFF := by
  apply BitVec.eq_of_toNat_eq
  have hmask : (0xFFFFFFFFFF : Word).toNat = 2^40 - 1 := rfl
  rw [BitVec.toNat_and, hmask, Nat.and_two_pow_sub_one_eq_mod, State.stamp, BitVec.toNat_setWidth, BitVec.toNat_setWidth]
  omega

@[simp] theorem strand_trapEntry (s : State) (c t : Nat) (r : TrapRec) : (trapEntry s c t r).strand c t =
    { s.strand c t with
      tcause := r.cause.zeroExtend 64 ||| (r.sub.zeroExtend 64 <<< 8)
      tval := r.tval
      tblk := r.tblk
      tlsid := r.tlsid.zeroExtend 64
      ttime := s.timebase &&& 0xFFFFFFFFFF
      status := statusTrap (s.strand c t).status
      resume := r.resume
      bpc := (s.core c).trapvec
      phase := .boundary } := by
  rw [← stamp_zeroExtend]
  exact State.strand_onStrand s c t _

@[simp] theorem strand_trapReturn (s : State) (c t : Nat) : (trapReturn s c t).strand c t =
    { s.strand c t with status := statusRet (s.strand c t).status, bpc := (s.strand c t).resume } :=
  State.strand_onStrand s c t _

/-- A write of TBLK sets RESUME (R381). -/
theorem strand_writeTblk (s : State) (c t : Nat) (v : Word) : (writeStrandReg s c t 3 v).strand c t =
    { s.strand c t with tblk := v, resume := v &&& ~~~63 } :=
  State.strand_onStrand s c t _

/-- Settles O35: the strand after each of the three is written out, and the two STATUS functions are read bit by bit. -/
theorem trapEntryAndReturn : Obligations.TrapEntryAndReturn := by
  unfold Obligations.TrapEntryAndReturn
  intro s c t r
  rw [strand_trapEntry, strand_trapReturn]
  refine ⟨⟨rfl, rfl, rfl, rfl, rfl, ?pmode, ?pie, ?mode, ?ie, fun j => getLsbD_statusTrap_other _, rfl, rfl, rfl⟩,
    fun v => by rw [strand_writeTblk], ?retMode, ?retIe, fun j => getLsbD_statusRet_other _, rfl⟩
  case pmode | pie | mode | ie => rw [getLsbD_statusTrap]; simp
  case retMode | retIe => rw [getLsbD_statusRet]; simp

end Sys2Proof.Machine
end
